-- ==== Sys2Proof/Word.lean ====
section
/-! DEFINITION. The word types of the LightSwarm Frame Encoder (spec/00_scope.md R6, R7; spec/30_encoding.md R71). -/

namespace Sys2Proof

/-- R6: a byte is an unsigned 8-bit value. -/
abbrev Byte := BitVec 8

/-- R6: a node address is an unsigned 16-bit value, 0 to 65535 (90_conflicts.md C2). -/
abbrev Addr := BitVec 16

/-- R22: the argument count `cmd_argc`, 0 to 15. -/
abbrev Argc := BitVec 4

/-- R22: the fifteen argument lanes `cmd_args`; lane `i` is bits `8*i+7 : 8*i`. -/
abbrev Lanes := BitVec 120

/-- R71: the 148-bit request word `REQ`. -/
abbrev Req := BitVec 148

end Sys2Proof
end

