-- ==== Sys2Proof/Machine/Checksum.lean ====
section
/-! DEFINITION. The checksum generator: an XOR-fold (spec/41_checksum.md R120 to R122). -/

namespace Sys2Proof.Machine

/-- R120: the running XOR from left to right, seeded at 0. -/
def xorFold (l : List Byte) : Byte := l.foldl (· ^^^ ·) 0

/-- R122: the checksum is the last byte of the payload with checksum. -/
def withChecksum (p : List Byte) : List Byte := p ++ [xorFold p]

end Sys2Proof.Machine
end

