-- ==== Sys2Proof/Config.lean ====
section
/-! DEFINITION. What is fixed when the block is elaborated (spec/00_scope.md R5), the values on the block's input pins
in one cycle (spec/10_state.md R21 to R25), and the free values (R180: inputs are free from cycle to cycle). -/

namespace Sys2Proof

/-- R5, R102, 92_eei_decisions.md D7: the two fade-parameter policies. -/
inductive FadePolicy where
  | passThrough
  | clamp
  deriving DecidableEq, Repr, Inhabited

/-- R5: the elaboration-time parameters that the spec leaves open. `MAX_ARGS` is fixed (`Config.maxArgs`). -/
structure Params where
  /-- `FADE_POLICY`. -/
  fadePolicy : FadePolicy
  /-- `ERR_W`, the width in bits of `snk_err_code`, `rcode` and `rsp_err_code` (at least 1). -/
  errW : Nat
  deriving DecidableEq, Repr, Inhabited

/-- R5: the spec's own values, `FADE_POLICY = CLAMP` and `ERR_W = 8`. -/
def Params.default : Params where
  fadePolicy := .clamp
  errW := 8

/-- R5: `MAX_ARGS = 15`, the largest value of the 4-bit `argc` field. -/
def Config.maxArgs : Nat := 15

/-- R27: the payload buffer has `3 + MAX_ARGS = 18` entries. -/
abbrev Config.pbufSize : Nat := 18

/-- The values on every input pin of the block during one cycle, two-valued (92_eei_decisions.md D28). -/
structure Inputs where
  /-- R21: `rst`, synchronous reset, active high. -/
  rst : Bool := false
  /-- R22: `cmd_valid`. -/
  cmdValid : Bool := false
  /-- R22: `cmd_addr`. -/
  cmdAddr : Addr := 0
  /-- R22: `cmd_code`. -/
  cmdCode : Byte := 0
  /-- R22: `cmd_argc`. -/
  cmdArgc : Argc := 0
  /-- R22: `cmd_args`. -/
  cmdArgs : Lanes := 0
  /-- R23: `out_ready`. -/
  outReady : Bool := false
  /-- R24: `snk_abort`. -/
  snkAbort : Bool := false
  /-- R24: `snk_err`. -/
  snkErr : Bool := false
  /-- R24: `snk_err_code`, an opaque token of `ERR_W` bits. The block never computes with it, so it is held as a number;
  only its value modulo `2 ^ ERR_W` reaches the block (`errToken` in Machine/Flags.lean). -/
  snkErrCode : Nat := 0
  /-- R25: `rsp_ready`. -/
  rspReady : Bool := false
  deriving DecidableEq, Repr, Inhabited

/-- FREE VALUE (R180, I6, I7, I8): what the requester and the sink drive in a cycle for which `State.inputs` lists
nothing. It has no body, so nothing can be proved of it, and a claim holds for every draw. -/
opaque Config.freeInputs : Nat → Inputs

/-- FREE VALUE: what a read of `pbuf` past its last entry returns, by cycle and index. The spec gives `pbuf` 18 entries
(R27) and says no reachable state reads past them (R38, R42), so only states that no run reaches see this value. -/
opaque Config.freePbufByte : Nat → Nat → Byte

end Sys2Proof
end

