-- ==== Sys2Proof/Syntax.lean ====
section
/-! DEFINITION. The instructions: one constructor for each row of spec/opcode_table.json (spec/30_encoding.md R76, R77).
An instruction is one request on the request port: the node address, the argument count and the fifteen argument lanes
(R71). Lanes at and above the count are don't-care, and the constructor keeps them, as the port does. -/

namespace Sys2Proof

/-- R76: the eleven listed command codes, and `frame` for every other code (R161, the table's fallback row).
Arguments: node address, argument count, argument lanes; `frame` has the code after the address. -/
inductive Instr where
  /-- `ON`, 0x20 (R150). -/
  | powerOn (addr : Addr) (argc : Argc) (args : Lanes)
  /-- `OFF`, 0x21 (R151). -/
  | powerOff (addr : Addr) (argc : Argc) (args : Lanes)
  /-- `SET_LEVEL`, 0x22 (R152). -/
  | setLevel (addr : Addr) (argc : Argc) (args : Lanes)
  /-- `FADE_TO_LEVEL`, 0x23 (R153). -/
  | fadeToLevel (addr : Addr) (argc : Argc) (args : Lanes)
  /-- `LEGACY_FADE_DOWN`, 0x24 (R154). -/
  | legacyFadeDown (addr : Addr) (argc : Argc) (args : Lanes)
  /-- `SET_PSEUDO_ADDRESS`, 0x25 (R155). -/
  | setPseudoAddress (addr : Addr) (argc : Argc) (args : Lanes)
  /-- `ERASE_PSEUDO_ADDRESS_TABLE`, 0x26 (R156). -/
  | erasePseudoAddressTable (addr : Addr) (argc : Argc) (args : Lanes)
  /-- `SET_RGB_LEVELS`, 0x2C (R157). -/
  | setRgbLevels (addr : Addr) (argc : Argc) (args : Lanes)
  /-- `TOGGLE`, 0x2D (R158). -/
  | toggle (addr : Addr) (argc : Argc) (args : Lanes)
  /-- `FADE_MULTIPLE_TO_LEVEL`, 0x30 (R159). -/
  | fadeMultipleToLevel (addr : Addr) (argc : Argc) (args : Lanes)
  /-- `FADE_RGB_TO_LEVEL`, 0x31 (R160). -/
  | fadeRgbToLevel (addr : Addr) (argc : Argc) (args : Lanes)
  /-- `FRAME`, any code that is not one of the eleven above (R161). -/
  | frame (addr : Addr) (code : Byte) (argc : Argc) (args : Lanes)
  deriving DecidableEq, Repr, Inhabited

end Sys2Proof
end

