-- ==== Sys2Proof/WellFormed.lean ====
section
/-! DEFINITION. Which terms of `Instr` stand for a request. Every 148-bit request is legal (spec/30_encoding.md R71, R78,
spec/40_packer.md R106), so the one check is that `frame` is not a second spelling of a listed command (R161). -/

namespace Sys2Proof

/-- R76: the eleven listed command codes, in code order. -/
def listedCodes : List Byte :=
  [0x20, 0x21, 0x22, 0x23, 0x24, 0x25, 0x26, 0x2C, 0x2D, 0x30, 0x31]

/-- R161: the code of `frame` is any value other than 0x20 to 0x26, 0x2C, 0x2D, 0x30 and 0x31.
Every other constructor is well-formed with every address, count and lane value (R71). -/
def Instr.wellFormed : Instr → Bool
  | .frame _ code _ _ => !listedCodes.contains code
  | .powerOn _ _ _ => true
  | .powerOff _ _ _ => true
  | .setLevel _ _ _ => true
  | .fadeToLevel _ _ _ => true
  | .legacyFadeDown _ _ _ => true
  | .setPseudoAddress _ _ _ => true
  | .erasePseudoAddressTable _ _ _ => true
  | .setRgbLevels _ _ _ => true
  | .toggle _ _ _ => true
  | .fadeMultipleToLevel _ _ _ => true
  | .fadeRgbToLevel _ _ _ => true

end Sys2Proof
end

