-- ==== Sys2Proof/Decode.lean ====
section
/-! DEFINITION. From the 148-bit request word to an instruction, and back (spec/30_encoding.md R71, R76, R77;
spec/opcode_table.json). -/

namespace Sys2Proof

/-! ### The fields of the request word (R71) -/

/-- `REQ[15:0]`, the node address. -/
def reqAddr (w : Req) : Addr := w.extractLsb' 0 16

/-- `REQ[23:16]`, the command code. -/
def reqCode (w : Req) : Byte := w.extractLsb' 16 8

/-- `REQ[27:24]`, the argument count. -/
def reqArgc (w : Req) : Argc := w.extractLsb' 24 4

/-- `REQ[147:28]`, the argument lanes: `arg[i]` is `REQ[28+8*i+7 : 28+8*i]`. -/
def reqArgs (w : Req) : Lanes := w.extractLsb' 28 120

/-- R71: the request word made of its four fields, `args` in the highest bits. -/
def mkReq (addr : Addr) (code : Byte) (argc : Argc) (args : Lanes) : Req :=
  (args ++ (argc ++ (code ++ addr))).cast (by decide)

/-! ### The command codes (R76) -/

/-- `ON`. -/
def codeOn : Byte := 0x20
/-- `OFF`. -/
def codeOff : Byte := 0x21
/-- `SET_LEVEL`. -/
def codeSetLevel : Byte := 0x22
/-- `FADE_TO_LEVEL`. -/
def codeFadeToLevel : Byte := 0x23
/-- `LEGACY_FADE_DOWN`. -/
def codeLegacyFadeDown : Byte := 0x24
/-- `SET_PSEUDO_ADDRESS`. -/
def codeSetPseudoAddress : Byte := 0x25
/-- `ERASE_PSEUDO_ADDRESS_TABLE`. -/
def codeErasePseudoAddressTable : Byte := 0x26
/-- `SET_RGB_LEVELS`. -/
def codeSetRgbLevels : Byte := 0x2C
/-- `TOGGLE`. -/
def codeToggle : Byte := 0x2D
/-- `FADE_MULTIPLE_TO_LEVEL`. -/
def codeFadeMultipleToLevel : Byte := 0x30
/-- `FADE_RGB_TO_LEVEL`. -/
def codeFadeRgbToLevel : Byte := 0x31

/-- R76, R77: the instruction that a request's fields denote. A code outside the table is framed verbatim (`frame`). -/
def instrOf (addr : Addr) (code : Byte) (argc : Argc) (args : Lanes) : Instr :=
  if code = codeOn then .powerOn addr argc args
  else if code = codeOff then .powerOff addr argc args
  else if code = codeSetLevel then .setLevel addr argc args
  else if code = codeFadeToLevel then .fadeToLevel addr argc args
  else if code = codeLegacyFadeDown then .legacyFadeDown addr argc args
  else if code = codeSetPseudoAddress then .setPseudoAddress addr argc args
  else if code = codeErasePseudoAddressTable then .erasePseudoAddressTable addr argc args
  else if code = codeSetRgbLevels then .setRgbLevels addr argc args
  else if code = codeToggle then .toggle addr argc args
  else if code = codeFadeMultipleToLevel then .fadeMultipleToLevel addr argc args
  else if code = codeFadeRgbToLevel then .fadeRgbToLevel addr argc args
  else .frame addr code argc args

/-- R71, R106: decoding is total. Every 148-bit value is a legal request and none is refused for its field values. -/
def decode (w : Req) : Instr :=
  instrOf (reqAddr w) (reqCode w) (reqArgc w) (reqArgs w)

/-- Why a number is not a request. -/
inductive DecodeError where
  /-- The number needs more than the 148 bits of `REQ` (I15: such a request is not expressible). -/
  | widerThanRequest
  deriving DecidableEq, Repr

/-- Any number: the instruction its 148 bits denote, or a refusal by name where it does not fit the request word. -/
def decodeNumber (w : Nat) : Except DecodeError Instr :=
  if w < 2 ^ 148 then .ok (decode (BitVec.ofNat 148 w)) else .error .widerThanRequest

/-- The instruction of a word of `nbits` bits numbered as spec/opcode_table.json numbers them (bit 0 of `REQ` first);
the request's bits above `nbits` are 0. -/
def decodeTableWord (nbits w : Nat) : Option Instr :=
  match decodeNumber (w % 2 ^ nbits) with
  | .ok i => some i
  | .error _ => none

/-! ### The encoder -/

/-- The node address of an instruction. -/
def Instr.addr : Instr → Addr
  | .powerOn a _ _ => a
  | .powerOff a _ _ => a
  | .setLevel a _ _ => a
  | .fadeToLevel a _ _ => a
  | .legacyFadeDown a _ _ => a
  | .setPseudoAddress a _ _ => a
  | .erasePseudoAddressTable a _ _ => a
  | .setRgbLevels a _ _ => a
  | .toggle a _ _ => a
  | .fadeMultipleToLevel a _ _ => a
  | .fadeRgbToLevel a _ _ => a
  | .frame a _ _ _ => a

/-- R76: the command code of an instruction. -/
def Instr.code : Instr → Byte
  | .powerOn _ _ _ => codeOn
  | .powerOff _ _ _ => codeOff
  | .setLevel _ _ _ => codeSetLevel
  | .fadeToLevel _ _ _ => codeFadeToLevel
  | .legacyFadeDown _ _ _ => codeLegacyFadeDown
  | .setPseudoAddress _ _ _ => codeSetPseudoAddress
  | .erasePseudoAddressTable _ _ _ => codeErasePseudoAddressTable
  | .setRgbLevels _ _ _ => codeSetRgbLevels
  | .toggle _ _ _ => codeToggle
  | .fadeMultipleToLevel _ _ _ => codeFadeMultipleToLevel
  | .fadeRgbToLevel _ _ _ => codeFadeRgbToLevel
  | .frame _ c _ _ => c

/-- The argument count of an instruction. -/
def Instr.argc : Instr → Argc
  | .powerOn _ n _ => n
  | .powerOff _ n _ => n
  | .setLevel _ n _ => n
  | .fadeToLevel _ n _ => n
  | .legacyFadeDown _ n _ => n
  | .setPseudoAddress _ n _ => n
  | .erasePseudoAddressTable _ n _ => n
  | .setRgbLevels _ n _ => n
  | .toggle _ n _ => n
  | .fadeMultipleToLevel _ n _ => n
  | .fadeRgbToLevel _ n _ => n
  | .frame _ _ n _ => n

/-- The argument lanes of an instruction. -/
def Instr.args : Instr → Lanes
  | .powerOn _ _ x => x
  | .powerOff _ _ x => x
  | .setLevel _ _ x => x
  | .fadeToLevel _ _ x => x
  | .legacyFadeDown _ _ x => x
  | .setPseudoAddress _ _ x => x
  | .erasePseudoAddressTable _ _ x => x
  | .setRgbLevels _ _ x => x
  | .toggle _ _ x => x
  | .fadeMultipleToLevel _ _ x => x
  | .fadeRgbToLevel _ _ x => x
  | .frame _ _ _ x => x

/-- R71: the request word of an instruction. -/
def encode (i : Instr) : Req := mkReq i.addr i.code i.argc i.args

end Sys2Proof
end

