-- ==== Sys2Proof/Machine/Operands.lean ====
section
/-! DEFINITION. The packer's pure functions: from a request's fields to the unescaped payload
(spec/40_packer.md R100 to R104; spec/30_encoding.md R79). -/

namespace Sys2Proof.Machine

/-- R100: the address split, high byte first (R52). -/
def split16 (a : Addr) : List Byte := [a.extractLsb' 8 8, a.extractLsb' 0 8]

/-- R53: argument lane `i`, bits `8*i+7 : 8*i`. -/
def lane (args : Lanes) (i : Nat) : Byte := args.extractLsb' (8 * i) 8

/-- R101: the raw argument bytes, the first `argc` lanes. -/
def argList (argc : Argc) (args : Lanes) : List Byte := (List.range argc.toNat).map (lane args)

/-- R102: `fixI`, interval 0 becomes 1. -/
def fixI (x : Byte) : Byte := if x = 0 then 1 else x

/-- R102: `fixS`, step 0 becomes 1, and a step above 127 becomes 127. -/
def fixS (x : Byte) : Byte := if x = 0 then 1 else if x ≤ 127 then x else 127

/-- R102: the fade policy on one (level, interval, step) triple. -/
def fadeTriple : FadePolicy → Byte → Byte → Byte → List Byte
  | .passThrough, l, i, s => [l, i, s]
  | .clamp, l, i, s => [l, fixI i, fixS s]

/-- R103: the argument positions of a command that hold an interval. -/
def intervalPositions (code : Byte) : List Nat :=
  if code = codeFadeToLevel then [1] else if code = codeFadeRgbToLevel then [1, 4, 7] else []

/-- R103: the argument positions of a command that hold a step. -/
def stepPositions (code : Byte) : List Nat :=
  if code = codeFadeToLevel then [2] else if code = codeFadeRgbToLevel then [2, 5, 8] else []

/-- R103: the formed byte at one argument position. -/
def formByte (policy : FadePolicy) (code : Byte) (j : Nat) (b : Byte) : Byte :=
  match policy with
  | .passThrough => b
  | .clamp =>
    if j ∈ intervalPositions code then fixI b
    else if j ∈ stepPositions code then fixS b
    else b

/-- R103: argument formation by command code; positions that are absent are not formed. -/
def formArgs (policy : FadePolicy) (code : Byte) (r : List Byte) : List Byte :=
  r.mapIdx (formByte policy code)

/-- R104: the unescaped payload, `split16(addr) ++ [code] ++ a`. -/
def payload (addr : Addr) (code : Byte) (a : List Byte) : List Byte := split16 addr ++ [code] ++ a

/-- R104, R105: the payload of a request under a policy. -/
def requestPayload (policy : FadePolicy) (addr : Addr) (code : Byte) (argc : Argc) (args : Lanes) : List Byte :=
  payload addr code (formArgs policy code (argList argc args))

/-! ### Placing argument bytes on lanes (R53, R81) -/

/-- The number whose byte `i` is the `i`-th byte of the list. -/
def packNat : List Byte → Nat
  | [] => 0
  | b :: bs => b.toNat + 256 * packNat bs

/-- R53, R81: `arg[i]` is the `i`-th byte listed; unused lanes are 0 (they are don't-care, R71). -/
def packArgs (bs : List Byte) : Lanes := BitVec.ofNat 120 (packNat bs)

end Sys2Proof.Machine
end

