-- ==== Sys2Proof/Machine/Escape.lean ====
section
/-! DEFINITION. Byte escaping and delimiter framing as functions (spec/42_escape_framing.md R130 to R136), and the wire
as a receiver reads it (spec/30_encoding.md R75). The block itself decodes nothing. -/

namespace Sys2Proof.Machine

/-- R74: END, the frame delimiter. -/
def endByte : Byte := 0xC0
/-- R74: ESC, the escape marker. -/
def escByte : Byte := 0xDB
/-- R73: the second byte of an escaped END. -/
def escEnd : Byte := 0xDC
/-- R73: the second byte of an escaped ESC. -/
def escEsc : Byte := 0xDD

/-- R74: the two byte values reserved on the wire. -/
def reserved (b : Byte) : Bool := b == endByte || b == escByte

/-- R137: the first wire byte of a payload byte. -/
def escFirst (b : Byte) : Byte := if reserved b then escByte else b

/-- R36, R137: the second wire byte of a reserved payload byte. -/
def escSecond (b : Byte) : Byte := if b = endByte then escEnd else escEsc

/-- R130: one payload byte to its wire bytes. -/
def escapeByte (b : Byte) : List Byte :=
  if b = endByte then [escByte, escEnd]
  else if b = escByte then [escByte, escEsc]
  else [b]

/-- R73: `escaped(...)`, every byte replaced by its escape, in order. -/
def escapeAll (p : List Byte) : List Byte := p.flatMap escapeByte

/-- R131: the delimited wire bytes of a byte list (R132: of the empty list, two delimiters). -/
def escapeWrap (p : List Byte) : List Byte := [endByte] ++ escapeAll p ++ [endByte]

/-- R134: the length of the frame of `q`, `2` and the length of each byte's escape. -/
def wireLen (q : List Byte) : Nat := 2 + (q.map fun b => (escapeByte b).length).sum

/-- R133: the whole frame of a request, from its raw argument bytes. -/
def encodeFrame (policy : FadePolicy) (addr : Addr) (code : Byte) (args : List Byte) : List Byte :=
  escapeWrap (withChecksum (payload addr code (formArgs policy code args)))

/-! ### The wire at a receiver (R75, R136): for statements about the wire, not a part of the block -/

/-- R136: the bytes strictly between the first and the last byte, which in a frame are its delimiters. DESIGN CHOICE
(notes/assumptions 23): the two bytes are dropped whatever they are, also where a frame is cut short (I13, N18). -/
def betweenDelimiters (w : List Byte) : List Byte := w.tail.dropLast

/-- R136: `unescape`. It is not defined on ESC followed by another byte, or on ESC at the end (I13): `none`. -/
def unescape : List Byte → Option (List Byte)
  | [] => some []
  | [b] => if b = escByte then none else some [b]
  | b :: c :: r =>
    if b = escByte then
      if c = escEnd then (unescape r).map (endByte :: ·)
      else if c = escEsc then (unescape r).map (escByte :: ·)
      else none
    else (unescape (c :: r)).map (b :: ·)

/-- R75: the pieces of a byte stream between END bytes. DESIGN CHOICE (notes/assumptions 23): the piece before the first
END and the piece after the last END are pieces like any other. -/
def splitAtEnd : List Byte → List (List Byte)
  | [] => [[]]
  | b :: r =>
    if b = endByte then [] :: splitAtEnd r
    else
      match splitAtEnd r with
      | [] => [[b]]
      | p :: ps => (b :: p) :: ps

/-- R75: the frames a receiver finds by scanning for END: the pieces that are not empty. DESIGN CHOICE: empty pieces are
dropped (notes/assumptions 20), and a piece with no END on one side, or a prefix of a cut frame that only the next frame's
END closes, is a frame like any other (notes/assumptions 23; R227, I13 and N18 leave both open). -/
def scanFrames (w : List Byte) : List (List Byte) := (splitAtEnd w).filter (! ·.isEmpty)

/-- R75: the argument count a receiver computes, `n - 4` for `n` unescaped bytes. DESIGN CHOICE (notes/assumptions 22): for
fewer than 4 bytes, a truncated frame that the spec leaves open (I13), the subtraction of natural numbers gives 0. -/
def receivedArgCount (q : List Byte) : Nat := q.length - 4

end Sys2Proof.Machine
end

