-- ==== Sys2Proof/Machine/Flags.lean ====
section
/-! DEFINITION. The one status flag `rerr` and the error value `rcode` it comes with
(spec/10_state.md R33, R34, R39; spec/44_transfer.md R181, R188). The block has no condition codes (R39). -/

namespace Sys2Proof.Machine

/-- R24: `snk_err_code` as it stands on its `ERR_W` pins. -/
def errToken (p : Params) (inp : Inputs) : Nat := inp.snkErrCode % 2 ^ p.errW

/-- R188: the value of `rerr` after a sink abort. -/
def abortErr (inp : Inputs) : Bool := inp.snkErr

/-- R188, 92_eei_decisions.md D26: the value of `rcode` after a sink abort, 0 where the sink reports no error. -/
def abortCode (p : Params) (inp : Inputs) : Nat := if inp.snkErr then errToken p inp else 0

/-- R181: `rerr` is cleared at acceptance. -/
def acceptErr : Bool := false

/-- R181: `rcode` is cleared at acceptance. -/
def acceptCode : Nat := 0

end Sys2Proof.Machine
end

