-- ==== Sys2Proof/Machine/State.lean ====
section
/-! DEFINITION. The state of the block (spec/10_state.md section 3), the reasons a step could stop, and the state after
reset (spec/70_reset_and_hazards.md R220). -/

namespace Sys2Proof.Machine

/-- R26: the FSM state `st`. Encodings 6 and 7 are never written and have no constructor (R26, I10). -/
inductive Fsm where
  /-- 0: no request in progress. -/
  | idle
  /-- 1: presenting the start delimiter. -/
  | sof
  /-- 2: presenting a payload or checksum byte, or the ESC that begins its escape. -/
  | body
  /-- 3: presenting the second byte of an escape pair. -/
  | esc2
  /-- 4: presenting the end delimiter. -/
  | eof
  /-- 5: presenting the response. -/
  | rsp
  deriving DecidableEq, Repr, Inhabited

/-- The machine's faults: none. Encoding faults are "none possible by construction" (R106, R200), and a sink error is no
fault of the machine: it is a next state, the move to RSP with the error recorded (R188, R201). Nobody can raise one, so
there is nothing here that could be unsafe. -/
inductive Fault where
  deriving DecidableEq, Repr

/-- The reasons for which an instruction could have no meaning. -/
inductive Refusal where
  /-- An instruction rejected by name in an arm of `exec`. No arm raises it: every row of the table has its meaning.
  Safe: it stops the run. -/
  | notModelled (mnemonic : String)
  deriving DecidableEq, Repr

/-- Everything the spec gives the block (the first nine fields, 10_state.md section 3), and three fields of the model's own:
the elaboration parameters, the coming input values, and the cycle number that indexes free values. -/
structure State where
  /-- R26: the FSM state. -/
  st : Fsm
  /-- R27: the payload buffer, 18 entries of 8 bits. -/
  pbuf : Vector Byte Config.pbufSize
  /-- R28: the payload length without the checksum. -/
  plen : BitVec 5
  /-- R29: the payload byte pointer. -/
  idx : BitVec 5
  /-- R30: the checksum accumulator. -/
  csum : Byte
  /-- R31: the accepted-byte counter. -/
  cnt : BitVec 6
  /-- R32: the length of the complete wire frame. -/
  flen : BitVec 6
  /-- R33: the sink-error flag. -/
  rerr : Bool
  /-- R34: the sink error value, an opaque token below `2 ^ ERR_W`. -/
  rcode : Nat
  /-- MODEL'S OWN FIELD. R5: the elaboration parameters. No step writes them (R40, R220). -/
  params : Params
  /-- MODEL'S OWN FIELD. R180: the values on the input pins, the current cycle's first. Where the list is empty the
  cycle's values are free (`Config.freeInputs`). -/
  inputs : List Inputs
  /-- MODEL'S OWN FIELD. The number of rising edges so far, which indexes free values. The block has no such counter
  (R211), and no register or output depends on it. -/
  cycle : Nat
  deriving DecidableEq, Repr

/-- R220: every register at its reset value. The parameters are the spec's defaults (R5), nothing is listed on the
inputs, and the cycle number is 0 (the model's own fields, DESIGN CHOICE, notes/assumptions 1 to 3). -/
def State.reset : State where
  st := .idle
  pbuf := Vector.replicate Config.pbufSize 0
  plen := 0
  idx := 0
  csum := 0
  cnt := 0
  flen := 0
  rerr := false
  rcode := 0
  params := Params.default
  inputs := []
  cycle := 0

end Sys2Proof.Machine
end

