-- ==== Sys2Proof/Machine/Ops.lean ====
section
/-! DEFINITION. The named operations over the state: the current input values, the payload buffer, acceptance of a
request, reset, the entry into the completion state and the return from it. -/

namespace Sys2Proof.Machine

/-! ### Inputs and time -/

/-- R180: the values on the input pins in the current cycle; free where the state lists none. -/
def State.now (s : State) : Inputs := s.inputs.headD (Config.freeInputs s.cycle)

/-- The rising edge has passed: the next cycle has its own input values. No register changes. -/
def tick (s : State) : State := { s with inputs := s.inputs.tail, cycle := s.cycle + 1 }

/-- `tick` after an instruction. -/
def tickOutcome : Host.Outcome State Fault Refusal → Host.Outcome State Fault Refusal
  | .next s => .next (tick s)
  | .fault r => .fault r
  | .refused r => .refused r

/-- R71: the request word on the request port. -/
def requestWord (inp : Inputs) : Req := mkReq inp.cmdAddr inp.cmdCode inp.cmdArgc inp.cmdArgs

/-- The same pins with a request presented and reset released. -/
def presentRequest (inp : Inputs) (w : Req) : Inputs :=
  { inp with
    rst := false
    cmdValid := true
    cmdAddr := reqAddr w
    cmdCode := reqCode w
    cmdArgc := reqArgc w
    cmdArgs := reqArgs w }

/-! ### The payload buffer -/

/-- R35: `pbuf[i]`. Past the last entry the value is free; no reachable state reads there (R42). -/
def pbufRead (s : State) (i : Nat) : Byte :=
  if h : i < Config.pbufSize then s.pbuf[i] else Config.freePbufByte s.cycle i

/-- R35: the current byte, `(idx < plen) ? pbuf[idx] : csum`. -/
def cur (s : State) : Byte := if s.idx < s.plen then pbufRead s s.idx.toNat else s.csum

/-- R105: the buffer that holds `p`, with 0 at and above its length. -/
def latchBuf (p : List Byte) : Vector Byte Config.pbufSize :=
  ⟨⟨(List.range Config.pbufSize).map fun j => p.getD j 0⟩, by simp⟩

/-- R105: the latch, which loads `pbuf` and `plen`. -/
def latch (p : List Byte) (s : State) : State :=
  { s with pbuf := latchBuf p, plen := BitVec.ofNat 5 p.length }

/-! ### Acceptance (R181) -/

/-- R181: what the acceptance edge writes for the payload `p`. -/
def accept (p : List Byte) (s : State) : State :=
  { latch p s with
    idx := 0
    csum := 0
    cnt := 0
    flen := BitVec.ofNat 6 (wireLen (withChecksum p))
    rerr := acceptErr
    rcode := acceptCode
    st := .sof }

/-- R149: the part that every command shares: one request presented at an edge with `rst = 0`. In IDLE it is accepted
(R181). Outside IDLE `cmd_ready = 0`, the request is not accepted and has no effect (R36, R191). -/
def request (code : Byte) (addr : Addr) (argc : Argc) (args : Lanes) (s : State) : Host.Outcome State Fault Refusal :=
  .next (if s.st = .idle then accept (requestPayload s.params.fadePolicy addr code argc args) s else s)

/-! ### Reset (R220) -/

/-- R21, R220: the registers at an edge with `rst = 1`. The parameters are not affected, and the inputs are not the
block's. -/
def resetEdge (s : State) : State :=
  { State.reset with params := s.params, inputs := s.inputs, cycle := s.cycle }

/-! ### Entry into the completion state and return from it (R207, R208) -/

/-- R183 to R187: one wire byte is accepted. -/
def countByte (s : State) : State := { s with cnt := s.cnt + 1 }

/-- R207: the entry into the completion state, which stands for trap entry: `st` moves to RSP; `cnt`, `flen`, `rerr` and
`rcode` are the record. There is no vector and nothing else is saved. -/
def enterResponse (s : State) : State := { s with st := .rsp }

/-- R188, R201, R202: the sink ends the frame. The byte presented counts if it is accepted at the same edge, the sink's
error is recorded, and the completion state is entered. -/
def sinkAbort (inp : Inputs) (s : State) : State :=
  let s' := if inp.outReady then countByte s else s
  enterResponse { s' with rerr := abortErr inp, rcode := abortCode s.params inp }

/-- R189, R208: the return from the completion state. No register is restored. -/
def takeResponse (s : State) : State := { s with st := .idle }

end Sys2Proof.Machine
end

