-- ==== Sys2Proof/Machine/Fade.lean ====
section
/-! DEFINITION. The four fade commands (spec/43_commands.md R153, R154, R159, R160). `FADE_POLICY` governs 0x23 and 0x31
only (spec/40_packer.md R103, 92_eei_decisions.md D8). -/

namespace Sys2Proof.Machine

/-- R153: `FADE_TO_LEVEL`, one fade triple under `FADE_POLICY`. -/
def execFadeToLevel (addr : Addr) (argc : Argc) (args : Lanes) (s : State) : Host.Outcome State Fault Refusal :=
  request codeFadeToLevel addr argc args s

/-- R154: `LEGACY_FADE_DOWN`, raw argument bytes, no fade policy. The block always encodes it (D5). -/
def execLegacyFadeDown (addr : Addr) (argc : Argc) (args : Lanes) (s : State) : Host.Outcome State Fault Refusal :=
  request codeLegacyFadeDown addr argc args s

/-- R159: `FADE_MULTIPLE_TO_LEVEL`, raw argument bytes, no fade policy. -/
def execFadeMultipleToLevel (addr : Addr) (argc : Argc) (args : Lanes) (s : State) : Host.Outcome State Fault Refusal :=
  request codeFadeMultipleToLevel addr argc args s

/-- R160: `FADE_RGB_TO_LEVEL`, three fade triples under `FADE_POLICY`. -/
def execFadeRgbToLevel (addr : Addr) (argc : Argc) (args : Lanes) (s : State) : Host.Outcome State Fault Refusal :=
  request codeFadeRgbToLevel addr argc args s

end Sys2Proof.Machine
end

