-- ==== Sys2Proof/Machine/Frame.lean ====
section
/-! DEFINITION. FRAME, every code outside the table (spec/43_commands.md R161). -/

namespace Sys2Proof.Machine

/-- R161: `FRAME`, the code as given and raw argument bytes. No fault is raised for the code (R77). -/
def execFrame (addr : Addr) (code : Byte) (argc : Argc) (args : Lanes) (s : State) : Host.Outcome State Fault Refusal :=
  request code addr argc args s

end Sys2Proof.Machine
end

