-- ==== Sys2Proof/Machine/Level.lean ====
section
/-! DEFINITION. SET_LEVEL and SET_RGB_LEVELS (spec/43_commands.md R152, R157). -/

namespace Sys2Proof.Machine

/-- R152: `SET_LEVEL`. The level is never clamped or substituted. -/
def execSetLevel (addr : Addr) (argc : Argc) (args : Lanes) (s : State) : Host.Outcome State Fault Refusal :=
  request codeSetLevel addr argc args s

/-- R157: `SET_RGB_LEVELS`, three channel levels, no clamping. -/
def execSetRgbLevels (addr : Addr) (argc : Argc) (args : Lanes) (s : State) : Host.Outcome State Fault Refusal :=
  request codeSetRgbLevels addr argc args s

end Sys2Proof.Machine
end

