-- ==== Sys2Proof/Machine/Power.lean ====
section
/-! DEFINITION. ON, OFF and TOGGLE (spec/43_commands.md R150, R151, R158). -/

namespace Sys2Proof.Machine

/-- R150: `ON`, power on. The source gives no arguments; a request that carries some is framed with them (D6). -/
def execOn (addr : Addr) (argc : Argc) (args : Lanes) (s : State) : Host.Outcome State Fault Refusal :=
  request codeOn addr argc args s

/-- R151: `OFF`, power off. -/
def execOff (addr : Addr) (argc : Argc) (args : Lanes) (s : State) : Host.Outcome State Fault Refusal :=
  request codeOff addr argc args s

/-- R158: `TOGGLE`. The block keeps no on/off state. -/
def execToggle (addr : Addr) (argc : Argc) (args : Lanes) (s : State) : Host.Outcome State Fault Refusal :=
  request codeToggle addr argc args s

end Sys2Proof.Machine
end

