-- ==== Sys2Proof/Machine/PseudoAddress.lean ====
section
/-! DEFINITION. SET_PSEUDO_ADDRESS and ERASE_PSEUDO_ADDRESS_TABLE (spec/43_commands.md R155, R156). -/

namespace Sys2Proof.Machine

/-- R155: `SET_PSEUDO_ADDRESS`, raw argument bytes. -/
def execSetPseudoAddress (addr : Addr) (argc : Argc) (args : Lanes) (s : State) : Host.Outcome State Fault Refusal :=
  request codeSetPseudoAddress addr argc args s

/-- R156: `ERASE_PSEUDO_ADDRESS_TABLE`, raw argument bytes. -/
def execErasePseudoAddressTable (addr : Addr) (argc : Argc) (args : Lanes) (s : State) :
    Host.Outcome State Fault Refusal :=
  request codeErasePseudoAddressTable addr argc args s

end Sys2Proof.Machine
end

