-- ==== Sys2Proof/Machine/Dispatch.lean ====
section
/-! DEFINITION. One arm per row of spec/opcode_table.json: the request presented at an edge with rst = 0. -/

namespace Sys2Proof.Machine

def exec (i : Instr) (s : State) : Host.Outcome State Fault Refusal :=
  match i with
  | .powerOn addr argc args => Sys2Proof.Machine.execOn addr argc args s
  | .powerOff addr argc args => Sys2Proof.Machine.execOff addr argc args s
  | .setLevel addr argc args => Sys2Proof.Machine.execSetLevel addr argc args s
  | .fadeToLevel addr argc args => Sys2Proof.Machine.execFadeToLevel addr argc args s
  | .legacyFadeDown addr argc args => Sys2Proof.Machine.execLegacyFadeDown addr argc args s
  | .setPseudoAddress addr argc args => Sys2Proof.Machine.execSetPseudoAddress addr argc args s
  | .erasePseudoAddressTable addr argc args => Sys2Proof.Machine.execErasePseudoAddressTable addr argc args s
  | .setRgbLevels addr argc args => Sys2Proof.Machine.execSetRgbLevels addr argc args s
  | .toggle addr argc args => Sys2Proof.Machine.execToggle addr argc args s
  | .fadeMultipleToLevel addr argc args => Sys2Proof.Machine.execFadeMultipleToLevel addr argc args s
  | .fadeRgbToLevel addr argc args => Sys2Proof.Machine.execFadeRgbToLevel addr argc args s
  | .frame addr code argc args => Sys2Proof.Machine.execFrame addr code argc args s

end Sys2Proof.Machine
end

