-- ==== Sys2Proof/Machine/Transfer.lean ====
section
/-! DEFINITION. The transfer sequence: what each FSM state does at a rising edge
(spec/44_transfer.md R180 to R189, R193; spec/42_escape_framing.md R137, R138). -/

namespace Sys2Proof.Machine

/-- R186: `advance()`, completing one byte of the payload with checksum. -/
def advance (s : State) : State :=
  if s.idx < s.plen then
    { s with csum := s.csum ^^^ pbufRead s s.idx.toNat, idx := s.idx + 1, st := .body }
  else { s with st := .eof }

/-- R183: the start delimiter is accepted. -/
def sofAccepted (s : State) : State := { countByte s with st := .body }

/-- R184: the byte presented in BODY is accepted. -/
def bodyAccepted (s : State) : State :=
  if reserved (cur s) then { countByte s with st := .esc2 } else advance (countByte s)

/-- R185: the second byte of an escape pair is accepted. -/
def esc2Accepted (s : State) : State := advance (countByte s)

/-- R187: the end delimiter is accepted, and the frame is complete. -/
def eofAccepted (s : State) : State := enterResponse (countByte s)

/-- R182, R188: a transfer state at an edge with `rst = 0`. The abort is tested first; without one, the state's own step
`accepted` happens where `out_ready = 1`, and nothing changes otherwise (R193: the block waits with no limit). -/
def transferEdge (accepted : State → State) (inp : Inputs) (s : State) : State :=
  if inp.snkAbort then sinkAbort inp s
  else if inp.outReady then accepted s
  else s

/-- R189: RSP at an edge with `rst = 0`. -/
def responseEdge (inp : Inputs) (s : State) : State := if inp.rspReady then takeResponse s else s

/-- R180, R206: a rising edge at which no request is accepted. Reset overrides everything; otherwise the FSM state's own
rule applies, and IDLE changes nothing. -/
def quietEdge (inp : Inputs) (s : State) : State :=
  if inp.rst then resetEdge s
  else
    match s.st with
    | .idle => s
    | .sof => transferEdge sofAccepted inp s
    | .body => transferEdge bodyAccepted inp s
    | .esc2 => transferEdge esc2Accepted inp s
    | .eof => transferEdge eofAccepted inp s
    | .rsp => responseEdge inp s

end Sys2Proof.Machine
end

