-- ==== Sys2Proof/Machine/Outputs.lean ====
section
/-! DEFINITION. The block's outputs (spec/10_state.md R36), the handshakes (R22, R23, R25), and the classification of a
response (spec/60_exceptions.md R203). -/

namespace Sys2Proof.Machine

/-- R22, R23, R25: the values on the block's output pins in one cycle. -/
structure Outputs where
  cmdReady : Bool
  outValid : Bool
  outData : Byte
  outSof : Bool
  outEof : Bool
  rspValid : Bool
  rspCount : BitVec 6
  rspLen : BitVec 6
  rspErr : Bool
  rspErrCode : Nat
  busy : Bool
  deriving DecidableEq, Repr

/-- R182: the transfer states. -/
def Fsm.transfer : Fsm → Bool
  | .sof => true
  | .body => true
  | .esc2 => true
  | .eof => true
  | .idle => false
  | .rsp => false

/-- R36: `out_data`. -/
def outData (s : State) : Byte :=
  match s.st with
  | .sof => endByte
  | .body => escFirst (cur s)
  | .esc2 => escSecond (cur s)
  | .eof => endByte
  | .idle => 0
  | .rsp => 0

/-- R36: `cmd_ready`, in a cycle with the given `rst`. -/
def cmdReady (rst : Bool) (s : State) : Bool := s.st == .idle && !rst

/-- R36: every output, a function of the registers and of `rst` alone. -/
def outputsAt (rst : Bool) (s : State) : Outputs where
  cmdReady := cmdReady rst s
  outValid := s.st.transfer
  outData := outData s
  outSof := s.st == .sof
  outEof := s.st == .eof
  rspValid := s.st == .rsp
  rspCount := s.cnt
  rspLen := s.flen
  rspErr := s.rerr
  rspErrCode := s.rcode
  busy := s.st != .idle

/-- R36: the outputs of the current cycle. -/
def outputs (s : State) : Outputs := outputsAt s.now.rst s

/-- R22: a request is accepted at this edge (`rst = 0`, `cmd_valid = 1`, `cmd_ready = 1`). -/
def requestAccepted (s : State) : Bool := !s.now.rst && s.now.cmdValid && (outputs s).cmdReady

/-- R23: a byte is accepted at this edge (`rst = 0`, `out_valid = 1`, `out_ready = 1`). -/
def byteAccepted (s : State) : Bool := !s.now.rst && (outputs s).outValid && s.now.outReady

/-- R25: a response is taken at this edge (`rst = 0`, `rsp_valid = 1`, `rsp_ready = 1`). -/
def responseTaken (s : State) : Bool := !s.now.rst && (outputs s).rspValid && s.now.rspReady

/-- R22, R71: the instruction whose request is accepted at this edge, decoded from the request port. -/
def fetch (s : State) : Option Instr := if requestAccepted s then some (decode (requestWord s.now)) else none

/-- R203: the outcome of a request. The block does not output it. -/
inductive Completion where
  /-- 0: no error and the whole frame accepted. -/
  | ok
  /-- 1: no error and a count below the frame length. -/
  | short
  /-- 2: the sink's error. -/
  | sinkError
  deriving DecidableEq, Repr

/-- R203: the outcome code. -/
def Completion.code : Completion → Nat
  | .ok => 0
  | .short => 1
  | .sinkError => 2

/-- R203: the outcome of a response, from its outputs; `none` where no response is presented. DESIGN CHOICE
(notes/assumptions 17): a count above the length, which no reachable state shows (R42) and R203 does not classify, has no
outcome without an error, and the outcome SINK_ERROR with one. -/
def completion (o : Outputs) : Option Completion :=
  if o.rspValid then
    if o.rspErr then some .sinkError
    else if o.rspCount = o.rspLen then some .ok
    else if o.rspCount < o.rspLen then some .short
    else none
  else none

end Sys2Proof.Machine
end

