-- ==== Sys2Proof/Machine/Step.lean ====
section
/-! DEFINITION. One step is one rising edge of `clk` (spec/44_transfer.md R180). -/

namespace Sys2Proof.Machine

/-- R180: at an edge that accepts a request, the decoded instruction runs (R181); at every other edge the FSM state's own
rule, or reset, applies. Then the next cycle begins. -/
def step (s : State) : Host.Outcome State Fault Refusal :=
  match fetch s with
  | some i => tickOutcome (exec i s)
  | none => .next (tick (quietEdge s.now s))

/-- The state in which the next edge accepts the request whose low `nbits` bits are `w` and whose other bits are 0: the
block is in IDLE, and the current cycle's pins present the request with `rst = 0`. Pins that IDLE ignores keep their
listed values (0 where the state lists none). -/
def State.withFetchWord (s : State) (nbits w : Nat) : State :=
  { s with
    st := .idle
    inputs := presentRequest (s.inputs.headD {}) (BitVec.ofNat 148 (w % 2 ^ nbits)) :: s.inputs.tail }

end Sys2Proof.Machine
end

