-- ==== Sys2Proof/Machine/Assembler.lean ====
section
/-! DEFINITION. The spec's spellings of requests and wire frames (spec/30_encoding.md R81 to R83,
92_eei_decisions.md D20). They are how vectors are written and no part of the block. -/

namespace Sys2Proof.Machine

/-- R81, R82: the request that an address, a code and listed argument bytes denote; at most 15 bytes (I15). -/
def requestOfBytes (addr : Addr) (code : Byte) (bytes : List Byte) : Option Instr :=
  if bytes.length ≤ Config.maxArgs then
    some (instrOf addr code (BitVec.ofNat 4 bytes.length) (packArgs bytes))
  else none

/-- R76: the code of a mnemonic. -/
def mnemonicCode (name : List Char) : Option Byte :=
  if name = "ON".toList then some codeOn
  else if name = "OFF".toList then some codeOff
  else if name = "SET_LEVEL".toList then some codeSetLevel
  else if name = "FADE_TO_LEVEL".toList then some codeFadeToLevel
  else if name = "LEGACY_FADE_DOWN".toList then some codeLegacyFadeDown
  else if name = "SET_PSEUDO_ADDRESS".toList then some codeSetPseudoAddress
  else if name = "ERASE_PSEUDO_ADDRESS_TABLE".toList then some codeErasePseudoAddressTable
  else if name = "SET_RGB_LEVELS".toList then some codeSetRgbLevels
  else if name = "TOGGLE".toList then some codeToggle
  else if name = "FADE_MULTIPLE_TO_LEVEL".toList then some codeFadeMultipleToLevel
  else if name = "FADE_RGB_TO_LEVEL".toList then some codeFadeRgbToLevel
  else none

/-- The value of a hexadecimal digit. -/
def digitValue (c : Char) : Option Nat :=
  if '0' ≤ c ∧ c ≤ '9' then some (c.toNat - '0'.toNat)
  else if 'a' ≤ c ∧ c ≤ 'f' then some (c.toNat - 'a'.toNat + 10)
  else if 'A' ≤ c ∧ c ≤ 'F' then some (c.toNat - 'A'.toNat + 10)
  else none

/-- The number of a digit string in a base, after the digits read so far. -/
def digitsValue (base : Nat) (acc : Nat) : List Char → Option Nat
  | [] => some acc
  | c :: r =>
    match digitValue c with
    | some d => if d < base then digitsValue base (base * acc + d) r else none
    | none => none

/-- R81: a decimal or `0x` hex number below `bound`. -/
def numberBelow (bound : Nat) (t : List Char) : Option Nat :=
  let v :=
    match t with
    | '0' :: 'x' :: c :: r => digitsValue 16 0 (c :: r)
    | c :: r => digitsValue 10 0 (c :: r)
    | [] => none
  v.filter (· < bound)

/-- A byte of a line. -/
def byteOfText (t : List Char) : Option Byte := (numberBelow 256 t).map (BitVec.ofNat 8)

/-- The comma-separated parts of a line. -/
def splitCommas : List Char → List (List Char)
  | [] => [[]]
  | c :: r =>
    if c = ',' then [] :: splitCommas r
    else
      match splitCommas r with
      | [] => [[c]]
      | p :: ps => (c :: p) :: ps

/-- A part without the spaces around it. -/
def trimSpaces (t : List Char) : List Char :=
  ((t.dropWhile (· = ' ')).reverse.dropWhile (· = ' ')).reverse

/-- The listed argument bytes of a line. -/
def bytesOfTexts : List (List Char) → Option (List Byte)
  | [] => some []
  | t :: r =>
    match byteOfText t, bytesOfTexts r with
    | some b, some bs => some (b :: bs)
    | _, _ => none

/-- R82: `code=<byte>`. -/
def codeOfText (t : List Char) : Option Byte :=
  match t with
  | 'c' :: 'o' :: 'd' :: 'e' :: '=' :: r => byteOfText r
  | _ => none

/-- R81, R82: the request that one line denotes, `<MNEMONIC> @<addr>[, <byte>]*` or
`FRAME @<addr>, code=<byte>[, <byte>]*`; `none` where the text is neither. Spaces around the parts are allowed. -/
def assemble (line : List Char) : Option Instr :=
  let name := line.takeWhile (· ≠ ' ')
  match (splitCommas (line.drop name.length)).map trimSpaces with
  | ('@' :: addrText) :: parts =>
    match numberBelow 65536 addrText with
    | none => none
    | some a =>
      if name = "FRAME".toList then
        match parts with
        | codeText :: rest =>
          match codeOfText codeText, bytesOfTexts rest with
          | some c, some bs => requestOfBytes (BitVec.ofNat 16 a) c bs
          | _, _ => none
        | [] => none
      else
        match mnemonicCode name, bytesOfTexts parts with
        | some c, some bs => requestOfBytes (BitVec.ofNat 16 a) c bs
        | _, _ => none
  | _ => none

/-- The upper-case hexadecimal digit of a number below 16. -/
def hexDigit (d : Nat) : Char := "0123456789ABCDEF".toList.getD d '?'

/-- R83: a byte as a hex pair. -/
def hexPair (b : Byte) : List Char := [hexDigit (b.toNat / 16), hexDigit (b.toNat % 16)]

/-- R83: a wire frame as space-separated hex pairs. -/
def wireText (w : List Byte) : List Char := (w.map hexPair).intersperse [' '] |>.flatten

/-- R83: a wire frame as a bracketed list of bytes in hex. -/
def wireListText (w : List Byte) : List Char :=
  ['['] ++ ((w.map fun b => '0' :: 'x' :: hexPair b).intersperse [',', ' ']).flatten ++ [']']

end Sys2Proof.Machine
end

