-- ==== Sys2Proof/Machine/Facade.lean ====
section
/-! DEFINITION. The source's Node Command Facade as pseudo-instructions: each operation is a request at a node address
(spec/30_encoding.md R84). The raw fade values are passed; the packer applies `FADE_POLICY` (R103). -/

namespace Sys2Proof.Machine

/-- R9: FadeParameters, the triple (level, interval, step) of bytes. -/
structure FadeParameters where
  level : Byte
  interval : Byte
  step : Byte
  deriving DecidableEq, Repr

/-- R79: a FadeParameters triple lays out as `[level, interval, step]`. -/
def FadeParameters.bytes (f : FadeParameters) : List Byte := [f.level, f.interval, f.step]

/-- `powerOn()`: `ON @a`. -/
def facadePowerOn (a : Addr) : Instr := .powerOn a 0 (packArgs [])

/-- `powerOff()`: `OFF @a`. -/
def facadePowerOff (a : Addr) : Instr := .powerOff a 0 (packArgs [])

/-- `setLevel(level)`: `SET_LEVEL @a, level`. -/
def facadeSetLevel (a : Addr) (level : Byte) : Instr := .setLevel a 1 (packArgs [level])

/-- `fadeToLevel(fade)`: `FADE_TO_LEVEL @a, level, interval, step`. -/
def facadeFadeToLevel (a : Addr) (fade : FadeParameters) : Instr := .fadeToLevel a 3 (packArgs fade.bytes)

/-- `setRGB(r, g, b)`: `SET_RGB_LEVELS @a, r, g, b`. -/
def facadeSetRgb (a : Addr) (r g b : Byte) : Instr := .setRgbLevels a 3 (packArgs [r, g, b])

/-- `fadeRGBToLevel(r, g, b)`: `FADE_RGB_TO_LEVEL @a`, the three triples in R, G, B order. -/
def facadeFadeRgbToLevel (a : Addr) (r g b : FadeParameters) : Instr :=
  .fadeRgbToLevel a 9 (packArgs (r.bytes ++ g.bytes ++ b.bytes))

/-- `toggle()`: `TOGGLE @a`. -/
def facadeToggle (a : Addr) : Instr := .toggle a 0 (packArgs [])

end Sys2Proof.Machine
end

