-- ==== Sys2Proof/Safety.lean ====
section
/-! DEFINITION. The terms in which claims are stated: runs of several edges, the bytes on the wire, and the invariant of
the block (spec/10_state.md R42; spec/42_escape_framing.md R139). -/

namespace Sys2Proof.Machine

/-! ### Runs -/

/-- `n` rising edges. -/
def runEdges : Nat → State → Host.Outcome State Fault Refusal
  | 0, s => .next s
  | n + 1, s =>
    match step s with
    | .next t => runEdges n t
    | .fault r => .fault r
    | .refused r => .refused r

/-- The condition `p` holds in each of the next `n` cycles, the current one first. -/
def allEdges (p : State → Bool) : Nat → State → Bool
  | 0, _ => true
  | n + 1, s =>
    p s &&
      match step s with
      | .next t => allEdges p n t
      | .fault _ => false
      | .refused _ => false

/-- R139: the values of `out_data` at the accepted handshakes of the next `n` edges, in order. -/
def wire : Nat → State → List Byte
  | 0, _ => []
  | n + 1, s =>
    (if byteAccepted s then [(outputs s).outData] else []) ++
      match step s with
      | .next t => wire n t
      | .fault _ => []
      | .refused _ => []

/-- How many of the next `n` cycles meet the condition `p`. -/
def countEdges (p : State → Bool) : Nat → State → Nat
  | 0, _ => 0
  | n + 1, s =>
    (if p s then 1 else 0) +
      match step s with
      | .next t => countEdges p n t
      | .fault _ => 0
      | .refused _ => 0

/-- No reset at the current cycle's edge. -/
def noReset (s : State) : Bool := !s.now.rst

/-- The current cycle's edge neither resets the block nor finds it in IDLE. -/
def inFlight (s : State) : Bool := !s.now.rst && s.st != .idle

/-- R229: the sink accepts in this cycle: `rst = 0`, `out_ready = 1`, `snk_abort = 0`. -/
def sinkReady (s : State) : Bool := !s.now.rst && s.now.outReady && !s.now.snkAbort

/-- R193: nothing that the block waits for happens in this cycle. -/
def waiting (s : State) : Bool :=
  !s.now.rst &&
    match s.st with
    | .idle => !s.now.cmdValid
    | .rsp => !s.now.rspReady
    | .sof => !s.now.outReady && !s.now.snkAbort
    | .body => !s.now.outReady && !s.now.snkAbort
    | .esc2 => !s.now.outReady && !s.now.snkAbort
    | .eof => !s.now.outReady && !s.now.snkAbort

/-! ### The frame that the registers hold -/

/-- R27, R28: the payload in the buffer, `pbuf[0 .. plen-1]`. -/
def heldPayload (s : State) : List Byte := s.pbuf.toList.take s.plen.toNat

/-- R30: the payload bytes already emitted, `pbuf[0 .. idx-1]`. -/
def emitted (s : State) : List Byte := s.pbuf.toList.take s.idx.toNat

/-- R133: the complete wire frame of the payload in the buffer. -/
def heldFrame (s : State) : List Byte := escapeWrap (withChecksum (heldPayload s))

/-- In a transfer state, the part of the frame that comes before the byte presented. -/
def sent (s : State) : List Byte :=
  match s.st with
  | .idle => []
  | .sof => []
  | .body => endByte :: (escapeAll (emitted s))
  | .esc2 => endByte :: (escapeAll (emitted s) ++ [escByte])
  | .eof => endByte :: escapeAll (withChecksum (heldPayload s))
  | .rsp => []

/-- The request `i`, presented in `s`, is accepted, and `frame` is the wire frame that the registers then hold (R181): the
block is in SOF, `flen` is the frame's length, the pointer, the checksum, the counter and the error record are cleared,
and the parameters, the inputs and the time are as before. -/
def AcceptsFrame (i : Instr) (s : State) (frame : List Byte) : Prop :=
  ∃ t, exec i s = .next t ∧ t.st = .sof ∧ heldFrame t = frame ∧ t.flen.toNat = frame.length ∧
    t.plen.toNat = 3 + i.argc.toNat ∧ t.idx = 0 ∧ t.csum = 0 ∧ t.cnt = 0 ∧ t.rerr = false ∧ t.rcode = 0 ∧
    t.params = s.params ∧ t.inputs = s.inputs ∧ t.cycle = s.cycle

/-! ### The invariant -/

/-- R5: `ERR_W` is at least 1. -/
abbrev ParamsInv (s : State) : Prop := 1 ≤ s.params.errW

/-- R27, R28, R42 items 1 and 2: the buffer, its length and the pointer. -/
abbrev BufferInv (s : State) : Prop :=
  s.plen.toNat ≤ 18 ∧ s.idx.toNat ≤ s.plen.toNat ∧ (s.st ≠ .idle → 3 ≤ s.plen.toNat) ∧
    ∀ j < 18, s.plen.toNat ≤ j → pbufRead s j = 0

/-- R42 items 3, 4 and 5: the pointer and the checksum in each transfer state. -/
abbrev PhaseInv (s : State) : Prop :=
  (s.st = .sof → s.idx = 0 ∧ s.csum = 0) ∧
    (s.st = .body ∨ s.st = .esc2 ∨ s.st = .eof → s.csum = xorFold (emitted s)) ∧
    (s.st = .eof → s.idx = s.plen) ∧
    (s.st = .esc2 → reserved (cur s) = true)

/-- R42 item 6, R31, R32: the counter and the frame length. -/
abbrev CountInv (s : State) : Prop :=
  s.cnt.toNat ≤ s.flen.toNat ∧ s.flen.toNat ≤ 39 ∧
    (s.st ≠ .idle → s.flen.toNat = (heldFrame s).length) ∧
    (s.st.transfer = true → s.cnt.toNat = (sent s).length)

/-- R42 item 8, R33, R34: the sink-error record. -/
abbrev ErrorInv (s : State) : Prop :=
  (s.rerr = false → s.rcode = 0) ∧ s.rcode < 2 ^ s.params.errW ∧ (s.st.transfer = true → s.rerr = false)

/-- The invariant of the block: R42 made inductive. -/
abbrev BlockInv (s : State) : Prop := ParamsInv s ∧ BufferInv s ∧ PhaseInv s ∧ CountInv s ∧ ErrorInv s

/-- R42, items 1 to 6 and 8 as the spec words them (item 7 is about the bytes of a run, R139). -/
abbrev ReachableFacts (s : State) : Prop :=
  (s.st ≠ .idle → 3 ≤ s.plen.toNat ∧ s.plen.toNat ≤ 18) ∧
    s.idx.toNat ≤ s.plen.toNat ∧
    (s.st = .sof → s.idx = 0 ∧ s.csum = 0) ∧
    (s.st = .body ∨ s.st = .esc2 ∨ s.st = .eof → s.csum = xorFold (emitted s)) ∧
    (s.st = .eof → s.idx = s.plen ∧ s.csum = xorFold (heldPayload s)) ∧
    (s.st = .esc2 → cur s = 0xC0 ∨ cur s = 0xDB) ∧
    (s.cnt.toNat ≤ s.flen.toNat ∧ s.flen.toNat ≤ 39) ∧
    (s.rerr = false → s.rcode = 0)

end Sys2Proof.Machine
end

