-- ==== Sys2Proof/Certificates/Slice0/Obligations.lean ====
section
/-! DEFINITION. The statements for the provers, in the order of OBLIGATIONS.json. -/

open Sys2Proof Sys2Proof.Machine

/-! ### Encodings -/

/-- R71, R76: seven request words written out in 95_test_vectors.md section 3 (P1 to P5) decode to the requests they are
given for. The eighth is the word that R71 gives to `FRAME @1, code=0x7F` of section 2.4 (R161, R77). -/
def Obligations.DecodeReadsSpecWords : Prop :=
  decode 0x2002B2 = .powerOn 690 0 0 ∧
  decode 0x21C0DB = .powerOff 0xC0DB 0 0 ∧
  decode 0x8012202B2 = .setLevel 690 1 0x80 ∧
  decode 0xC805FF32302B2 = .fadeToLevel 690 3 0xC805FF ∧
  decode 0xDBC032C02B2 = .setRgbLevels 690 3 0xDBC0 ∧
  decode 0x2D02B2 = .toggle 690 0 0 ∧
  decode 0x50503C8000200000193102B2 = .fadeRgbToLevel 690 9 0x50503C80002000001 ∧
  decode 0x7F0001 = .frame 1 0x7F 0 0

/-- R71, R76, R161: decoding the word of a well-formed instruction gives it back, every operand at every value. -/
def Obligations.DecodeOfEncode : Prop :=
  ∀ i : Instr, i.wellFormed = true → decode (encode i) = i

/-- R71: every 148-bit value is a legal request, and its fields are those of the table. That the encoder gives the same
word back, the don't-care lanes at and above the count included, is the model's choice (notes/assumptions 12: an
instruction keeps those lanes), and so is the decoder of numbers (notes/assumptions 13). -/
def Obligations.EveryWordIsARequest : Prop :=
  ∀ w : Req,
    (decode w).wellFormed = true ∧ encode (decode w) = w ∧
    (decode w).addr = w.extractLsb' 0 16 ∧ (decode w).code = w.extractLsb' 16 8 ∧
    (decode w).argc = w.extractLsb' 24 4 ∧
    (∀ i < 15, lane (decode w).args i = w.extractLsb' (28 + 8 * i) 8) ∧
    decodeNumber w.toNat = .ok (decode w)

/-! ### The packer -/

/-- R100, R52: the address goes out high byte first, and the two bytes reassemble to it. -/
def Obligations.AddressSplitReassembles : Prop :=
  ∀ a : Addr, ∃ hi lo : Byte,
    split16 a = [hi, lo] ∧ hi.toNat = a.toNat / 256 ∧ lo.toNat = a.toNat % 256 ∧ hi.toNat * 256 + lo.toNat = a.toNat

/-- R101, R53: the raw arguments are the first `argc` lanes in index order, and the other lanes are not read. -/
def Obligations.ArgumentListReadsCountedLanes : Prop :=
  ∀ (n : Argc) (x : Lanes),
    (argList n x).length = n.toNat ∧
    (∀ i < n.toNat, (argList n x)[i]? = some (x.extractLsb' (8 * i) 8)) ∧
    ∀ y : Lanes, (∀ i < n.toNat, x.extractLsb' (8 * i) 8 = y.extractLsb' (8 * i) 8) → argList n x = argList n y

/-- R102: PASS_THROUGH keeps a triple; CLAMP keeps the level, substitutes interval 0 by 1, and takes the step to 1 to 127. -/
def Obligations.FadeTriplePolicy : Prop :=
  ∀ l i s : Byte,
    fadeTriple .passThrough l i s = [l, i, s] ∧
    ∃ i' s' : Byte,
      fadeTriple .clamp l i s = [l, i', s'] ∧
      i'.toNat = (if i.toNat = 0 then 1 else i.toNat) ∧
      s'.toNat = (if s.toNat = 0 then 1 else min s.toNat 127)

/-- R103: formation keeps the length and every byte, but under CLAMP the interval positions (1 of code 0x23; 1, 4, 7 of
code 0x31) and the step positions (2; 2, 5, 8), each if present. At three arguments of 0x23 and nine of 0x31 it is the
Facade's: one fade triple per channel. -/
def Obligations.ArgumentFormation : Prop :=
  (∀ (policy : FadePolicy) (code : Byte) (r : List Byte),
    (formArgs policy code r).length = r.length ∧
    ∀ j (h : j < r.length),
      (formArgs policy code r)[j]? =
        some
          (if policy = .clamp ∧ ((code = 0x23 ∧ j = 1) ∨ (code = 0x31 ∧ (j = 1 ∨ j = 4 ∨ j = 7))) then
            (if r[j] = 0 then 1 else r[j])
          else if policy = .clamp ∧ ((code = 0x23 ∧ j = 2) ∨ (code = 0x31 ∧ (j = 2 ∨ j = 5 ∨ j = 8))) then
            (if r[j] = 0 then 1 else if r[j].toNat ≤ 127 then r[j] else 127)
          else r[j])) ∧
  ∀ policy : FadePolicy,
    (∀ l i s : Byte, formArgs policy 0x23 [l, i, s] = fadeTriple policy l i s) ∧
    ∀ rl ri rs gl gi gs bl bi bs : Byte,
      formArgs policy 0x31 [rl, ri, rs, gl, gi, gs, bl, bi, bs] =
        fadeTriple policy rl ri rs ++ fadeTriple policy gl gi gs ++ fadeTriple policy bl bi bs

/-- R104, R105: the latch puts the payload into the buffer's first entries, zeroes the others, sets `plen` to
`3 + argc`, and changes nothing else. -/
def Obligations.LatchLoadsPayload : Prop :=
  ∀ (policy : FadePolicy) (a : Addr) (c : Byte) (n : Argc) (x : Lanes) (s : State),
    let p := split16 a ++ [c] ++ formArgs policy c (argList n x)
    let t := latch (requestPayload policy a c n x) s
    p.length = 3 + n.toNat ∧ t.plen.toNat = 3 + n.toNat ∧
    (∀ j < 18, pbufRead t j = if h : j < p.length then p[j] else 0) ∧
    t = { s with pbuf := t.pbuf, plen := t.plen }

/-! ### The checksum generator -/

/-- R124: a frame's unescaped bytes fold to 0; the fold does not depend on byte order; errors that flip each bit position
in an even number of bytes are not detected. -/
def Obligations.ChecksumProperties : Prop :=
  (∀ p : List Byte, xorFold (p ++ [xorFold p]) = 0) ∧
  (∀ p q : List Byte, p.Perm q → xorFold p = xorFold q) ∧
  ∀ p e : List Byte, p.length = e.length → xorFold e = 0 → xorFold (List.zipWith (· ^^^ ·) p e) = xorFold p

/-! ### Escaping and framing -/

/-- R136: un-escaping the inside of `escapeWrap(p)` gives `p`, and `unescape` is undefined on ESC followed by any byte but
0xDC and 0xDD, and on ESC at the end. -/
def Obligations.UnescapeInvertsEscapeWrap : Prop :=
  (∀ p : List Byte, unescape (betweenDelimiters (escapeWrap p)) = some p) ∧
  (∀ (c : Byte) (r : List Byte), c ≠ 0xDC → c ≠ 0xDD → unescape (0xDB :: c :: r) = none) ∧
  unescape [0xDB] = none

/-- R135: END occurs exactly twice in a frame, first and last, and every ESC is followed by 0xDC or 0xDD. -/
def Obligations.DelimiterGuarantee : Prop :=
  ∀ p : List Byte,
    (escapeWrap p).count 0xC0 = 2 ∧ (escapeWrap p).head? = some 0xC0 ∧ (escapeWrap p).getLast? = some 0xC0 ∧
    ∀ i : Nat, (escapeWrap p)[i]? = some 0xDB →
      (escapeWrap p)[i + 1]? = some 0xDC ∨ (escapeWrap p)[i + 1]? = some 0xDD

/-- R134: the frame length, its bounds for even and odd argument counts, the range 6 to 39 with 39 reached, and that `flen`
holds it after an acceptance. -/
def Obligations.FrameLengthBounds : Prop :=
  (∀ q : List Byte,
    wireLen q = (escapeWrap q).length ∧
    wireLen q = 2 + q.length + q.countP (fun b => b == 0xC0 || b == 0xDB)) ∧
  (∀ (policy : FadePolicy) (a : Addr) (c : Byte) (n : Argc) (x : Lanes),
    let q := withChecksum (requestPayload policy a c n x)
    q.length = n.toNat + 4 ∧ n.toNat + 6 ≤ wireLen q ∧
    (n.toNat % 2 = 0 → wireLen q ≤ 2 * n.toNat + 10) ∧
    (n.toNat % 2 = 1 → wireLen q ≤ 2 * n.toNat + 9) ∧
    6 ≤ wireLen q ∧ wireLen q ≤ 39) ∧
  (∀ policy : FadePolicy,
    wireLen (withChecksum (requestPayload policy 0xC0DB 0xC0 15
      (packArgs [0xC0, 0xDB, 0xC0, 0xDB, 0xC0, 0xDB, 0xC0, 0xDB, 0xC0, 0xDB, 0xC0, 0xDB, 0xC0, 0xDB, 0xC0]))) = 39) ∧
  ∀ (i : Instr) (s : State), s.st = .idle →
    ∃ t, exec i s = .next t ∧
      t.flen.toNat = wireLen (withChecksum (requestPayload s.params.fadePolicy i.addr i.code i.argc i.args))

/-- R75, R124, R136: from a frame a receiver reads the payload with checksum, whose length gives the argument count, whose
last byte is the checksum of the rest, and which folds to 0. -/
def Obligations.ReceiverReadsFrame : Prop :=
  ∀ (policy : FadePolicy) (a : Addr) (c : Byte) (r : List Byte),
    ∃ q : List Byte,
      unescape (betweenDelimiters (encodeFrame policy a c r)) = some q ∧
      receivedArgCount q = r.length ∧
      q.dropLast = split16 a ++ [c] ++ formArgs policy c r ∧
      q.getLast? = some (xorFold q.dropLast) ∧
      xorFold q = 0

/-- R75, R135: in a stream of frames, scanning for END finds each frame's inside, in order. This is about the model's
scanner, which drops the empty pieces between two delimiters: the model's choice (notes/assumptions 20), where R75 says
only that a receiver scans for END. -/
def Obligations.ScanningFindsFrames : Prop :=
  ∀ ps : List (List Byte), (∀ p ∈ ps, p ≠ []) → scanFrames (ps.flatMap escapeWrap) = ps.map escapeAll

/-- R62, R133: two requests with the same frame have the same address, code and formed arguments. -/
def Obligations.FramesAreUnambiguous : Prop :=
  ∀ (f g : FadePolicy) (a b : Addr) (c d : Byte) (r q : List Byte),
    encodeFrame f a c r = encodeFrame g b d q → a = b ∧ c = d ∧ formArgs f c r = formArgs g d q

/-! ### Commands -/

/-- R181, R105, R149: in IDLE every command is accepted, whatever its fields. Every register takes the value R181 gives
it, and nothing else changes. -/
def Obligations.EveryCommandIsAccepted : Prop :=
  ∀ (i : Instr) (s : State), s.st = .idle →
    let p := split16 i.addr ++ [i.code] ++ formArgs s.params.fadePolicy i.code (argList i.argc i.args)
    exec i s = .next
      { s with
        st := .sof
        pbuf := latchBuf p
        plen := BitVec.ofNat 5 (3 + i.argc.toNat)
        idx := 0
        csum := 0
        cnt := 0
        flen := BitVec.ofNat 6 (wireLen (p ++ [xorFold p]))
        rerr := false
        rcode := 0 }

/-- R150, R151, R158: ON, OFF and TOGGLE frame the address and the code; arguments that a request carries are framed too. -/
def Obligations.PowerCommandFrames : Prop :=
  ∀ (a : Addr) (n : Argc) (x : Lanes) (s : State), s.st = .idle →
    let hi : Byte := a.extractLsb' 8 8
    let lo : Byte := a.extractLsb' 0 8
    (AcceptsFrame (.powerOn a 0 x) s (escapeWrap [hi, lo, 0x20, hi ^^^ lo ^^^ 0x20]) ∧
      AcceptsFrame (.powerOff a 0 x) s (escapeWrap [hi, lo, 0x21, hi ^^^ lo ^^^ 0x21]) ∧
      AcceptsFrame (.toggle a 0 x) s (escapeWrap [hi, lo, 0x2D, hi ^^^ lo ^^^ 0x2D])) ∧
    AcceptsFrame (.powerOn a n x) s (escapeWrap (withChecksum (split16 a ++ [0x20] ++ argList n x))) ∧
    AcceptsFrame (.powerOff a n x) s (escapeWrap (withChecksum (split16 a ++ [0x21] ++ argList n x))) ∧
    AcceptsFrame (.toggle a n x) s (escapeWrap (withChecksum (split16 a ++ [0x2D] ++ argList n x)))

/-- R152, R157: SET_LEVEL frames its one level and SET_RGB_LEVELS its three, unclamped; other counts are framed as given. -/
def Obligations.LevelCommandFrames : Prop :=
  ∀ (a : Addr) (n : Argc) (x : Lanes) (s : State), s.st = .idle →
    let hi : Byte := a.extractLsb' 8 8
    let lo : Byte := a.extractLsb' 0 8
    let b : Nat → Byte := fun k => x.extractLsb' (8 * k) 8
    AcceptsFrame (.setLevel a 1 x) s (escapeWrap [hi, lo, 0x22, b 0, hi ^^^ lo ^^^ 0x22 ^^^ b 0]) ∧
    AcceptsFrame (.setRgbLevels a 3 x) s
      (escapeWrap [hi, lo, 0x2C, b 0, b 1, b 2, hi ^^^ lo ^^^ 0x2C ^^^ b 0 ^^^ b 1 ^^^ b 2]) ∧
    AcceptsFrame (.setLevel a n x) s (escapeWrap (withChecksum (split16 a ++ [0x22] ++ argList n x))) ∧
    AcceptsFrame (.setRgbLevels a n x) s (escapeWrap (withChecksum (split16 a ++ [0x2C] ++ argList n x)))

/-- R153: FADE_TO_LEVEL frames its triple under FADE_POLICY; other counts are formed as R103 says. -/
def Obligations.FadeToLevelFrame : Prop :=
  ∀ (a : Addr) (n : Argc) (x : Lanes) (s : State), s.st = .idle →
    let b : Nat → Byte := fun k => x.extractLsb' (8 * k) 8
    let p := [a.extractLsb' 8 8, a.extractLsb' 0 8, 0x23] ++ fadeTriple s.params.fadePolicy (b 0) (b 1) (b 2)
    AcceptsFrame (.fadeToLevel a 3 x) s (escapeWrap (p ++ [xorFold p])) ∧
    AcceptsFrame (.fadeToLevel a n x) s (encodeFrame s.params.fadePolicy a 0x23 (argList n x))

/-- R160: FADE_RGB_TO_LEVEL frames three triples in R, G, B order under FADE_POLICY; other counts are formed as R103
says. -/
def Obligations.FadeRgbToLevelFrame : Prop :=
  ∀ (a : Addr) (n : Argc) (x : Lanes) (s : State), s.st = .idle →
    let b : Nat → Byte := fun k => x.extractLsb' (8 * k) 8
    let f := fadeTriple s.params.fadePolicy
    let p := [a.extractLsb' 8 8, a.extractLsb' 0 8, 0x31] ++
      (f (b 0) (b 1) (b 2) ++ f (b 3) (b 4) (b 5) ++ f (b 6) (b 7) (b 8))
    AcceptsFrame (.fadeRgbToLevel a 9 x) s (escapeWrap (p ++ [xorFold p])) ∧
    AcceptsFrame (.fadeRgbToLevel a n x) s (encodeFrame s.params.fadePolicy a 0x31 (argList n x))

/-- R154, R155, R156, R159: the four commands without a layout frame their raw bytes, and no fade policy applies. -/
def Obligations.RawCommandFrames : Prop :=
  ∀ (a : Addr) (n : Argc) (x : Lanes) (s : State), s.st = .idle →
    AcceptsFrame (.legacyFadeDown a n x) s (escapeWrap (withChecksum (split16 a ++ [0x24] ++ argList n x))) ∧
    AcceptsFrame (.setPseudoAddress a n x) s (escapeWrap (withChecksum (split16 a ++ [0x25] ++ argList n x))) ∧
    AcceptsFrame (.erasePseudoAddressTable a n x) s (escapeWrap (withChecksum (split16 a ++ [0x26] ++ argList n x))) ∧
    AcceptsFrame (.fadeMultipleToLevel a n x) s (escapeWrap (withChecksum (split16 a ++ [0x30] ++ argList n x)))

/-- R161, R77: a code outside the table is framed verbatim with its raw bytes, and raises nothing. -/
def Obligations.UnlistedCodeFrame : Prop :=
  ∀ (a : Addr) (c : Byte) (n : Argc) (x : Lanes) (s : State), s.st = .idle → (Instr.frame a c n x).wellFormed = true →
    AcceptsFrame (.frame a c n x) s (escapeWrap (withChecksum (split16 a ++ [c] ++ argList n x)))

/-- The model's choice (notes/assumptions 6, DEDUCED from R36 and R191): outside IDLE `exec` leaves the whole state as it
is. `step` never calls `exec` there, and the FSM's own move at that edge is in `step`; that the block ignores the request
is `IgnoredInputs`. -/
def Obligations.RequestTurnedAwayWhileBusy : Prop :=
  ∀ (i : Instr) (s : State), s.st ≠ .idle → exec i s = .next s

/-- R62: the frame depends on the policy and on the address, code, count and counted lanes alone; lanes at and above the
count, earlier frames and the sink have no part in it. -/
def Obligations.FrameDependsOnRequestAlone : Prop :=
  ∀ (i j : Instr) (s u t v : State),
    i.addr = j.addr → i.code = j.code → i.argc = j.argc →
    (∀ k < i.argc.toNat, lane i.args k = lane j.args k) →
    s.st = .idle → u.st = .idle → s.params.fadePolicy = u.params.fadePolicy →
    exec i s = .next t → exec j u = .next v →
      heldFrame t = heldFrame v ∧ t.pbuf = v.pbuf ∧ t.plen = v.plen ∧ t.flen = v.flen

/-- R84: each Facade operation's request has the frame the source gives the operation, fade values formed by the policy. -/
def Obligations.FacadeOperationsFrame : Prop :=
  ∀ (a : Addr) (x y z : Byte) (r g b : FadeParameters) (s : State), s.st = .idle →
    let frame : Byte → List Byte → List Byte := fun c l => escapeWrap (withChecksum (split16 a ++ [c] ++ l))
    let f := s.params.fadePolicy
    AcceptsFrame (facadePowerOn a) s (frame 0x20 []) ∧
    AcceptsFrame (facadePowerOff a) s (frame 0x21 []) ∧
    AcceptsFrame (facadeSetLevel a x) s (frame 0x22 [x]) ∧
    AcceptsFrame (facadeFadeToLevel a r) s (frame 0x23 (fadeTriple f r.level r.interval r.step)) ∧
    AcceptsFrame (facadeSetRgb a x y z) s (frame 0x2C [x, y, z]) ∧
    AcceptsFrame (facadeFadeRgbToLevel a r g b) s
      (frame 0x31 (fadeTriple f r.level r.interval r.step ++ fadeTriple f g.level g.interval g.step ++
        fadeTriple f b.level b.interval b.step)) ∧
    AcceptsFrame (facadeToggle a) s (frame 0x2D [])

/-- R81, R82: a line's request carries the address, the code and the listed bytes in lane order; more than 15 bytes denote
no request. -/
def Obligations.ListedBytesBecomeLanes : Prop :=
  ∀ (a : Addr) (c : Byte) (bs : List Byte),
    (bs.length ≤ 15 →
      ∃ i, requestOfBytes a c bs = some i ∧ i.addr = a ∧ i.code = c ∧ i.argc.toNat = bs.length ∧
        argList i.argc i.args = bs ∧ i.wellFormed = true) ∧
    (15 < bs.length → requestOfBytes a c bs = none)

/-! ### The step -/

/-- R22, R181: at an edge with `rst = 0` in IDLE with `cmd_valid = 1`, where the port's request word is that of a
well-formed instruction, the step is that instruction, and then the next cycle begins (the clauses on `inputs` and `cycle`
are about the model's own fields, notes/assumptions 2 and 3). -/
def Obligations.StepRunsDecodedInstruction : Prop :=
  ∀ (i : Instr) (s : State), i.wellFormed = true → requestWord s.now = encode i →
    s.st = .idle → s.now.rst = false → s.now.cmdValid = true →
      step s = tickOutcome (exec i s) ∧
      ∀ t, exec i s = .next t → step s = .next { t with inputs := s.inputs.tail, cycle := s.cycle + 1 }

/-- R220, R21: at an edge with `rst = 1` every register takes its reset value, whatever the state and the other inputs; the
parameters are not affected. The clauses on `inputs` and `cycle` are about the model's own fields, the model's choice
(notes/assumptions 2 and 3), and rest on no rule. -/
def Obligations.ResetEdgeSetsRegisters : Prop :=
  ∀ s : State, s.now.rst = true →
    ∃ t, step s = .next t ∧ t.st = .idle ∧ (∀ j < 18, pbufRead t j = 0) ∧ t.plen = 0 ∧ t.idx = 0 ∧ t.csum = 0 ∧
      t.cnt = 0 ∧ t.flen = 0 ∧ t.rerr = false ∧ t.rcode = 0 ∧ t.params = s.params ∧
      t.inputs = s.inputs.tail ∧ t.cycle = s.cycle + 1

/-- R181: IDLE at an edge with `rst = 0`. With `cmd_valid = 1` the request on the port is accepted: the packer's latch, the
cleared registers, the frame length, and SOF; with `cmd_valid = 0` nothing changes. -/
def Obligations.IdleStep : Prop :=
  ∀ s : State, s.st = .idle → s.now.rst = false →
    let p := split16 s.now.cmdAddr ++ [s.now.cmdCode] ++
      formArgs s.params.fadePolicy s.now.cmdCode (argList s.now.cmdArgc s.now.cmdArgs)
    (outputs s).cmdReady = true ∧
    (s.now.cmdValid = true →
      ∃ t, step s = .next t ∧ t.st = .sof ∧ (∀ j < 18, pbufRead t j = if h : j < p.length then p[j] else 0) ∧
        t.plen.toNat = 3 + s.now.cmdArgc.toNat ∧ t.idx = 0 ∧ t.csum = 0 ∧ t.cnt = 0 ∧
        t.flen.toNat = wireLen (p ++ [xorFold p]) ∧ t.rerr = false ∧ t.rcode = 0 ∧ t.params = s.params) ∧
    (s.now.cmdValid = false → step s = .next (tick s))

/-- R183: SOF presents END; its acceptance counts it and enters BODY, and nothing changes while the sink waits. -/
def Obligations.StartDelimiterStep : Prop :=
  ∀ s : State, s.st = .sof → s.now.rst = false → s.now.snkAbort = false →
    (outputs s).outData = 0xC0 ∧ (outputs s).outSof = true ∧ (outputs s).outValid = true ∧
    (s.now.outReady = true → step s = .next (tick { s with cnt := s.cnt + 1, st := .body })) ∧
    (s.now.outReady = false → step s = .next (tick s))

/-- R184, R186: BODY presents the current byte, or ESC for a reserved one. An accepted ESC enters ESC2 with `idx` and `csum`
unchanged; an accepted byte advances. -/
def Obligations.PayloadByteStep : Prop :=
  ∀ s : State, s.st = .body → s.now.rst = false → s.now.snkAbort = false →
    (outputs s).outData = (if cur s = 0xC0 ∨ cur s = 0xDB then 0xDB else cur s) ∧
    (s.now.outReady = false → step s = .next (tick s)) ∧
    (s.now.outReady = true → cur s = 0xC0 ∨ cur s = 0xDB →
      step s = .next (tick { s with cnt := s.cnt + 1, st := .esc2 })) ∧
    (s.now.outReady = true → ¬ (cur s = 0xC0 ∨ cur s = 0xDB) → s.idx.toNat < s.plen.toNat →
      step s = .next (tick
        { s with cnt := s.cnt + 1, csum := s.csum ^^^ pbufRead s s.idx.toNat, idx := s.idx + 1, st := .body })) ∧
    (s.now.outReady = true → ¬ (cur s = 0xC0 ∨ cur s = 0xDB) → ¬ s.idx.toNat < s.plen.toNat →
      step s = .next (tick { s with cnt := s.cnt + 1, st := .eof }))

/-- R185, R186: ESC2 presents 0xDC for END and 0xDD otherwise, and its acceptance advances. -/
def Obligations.EscapePairStep : Prop :=
  ∀ s : State, s.st = .esc2 → s.now.rst = false → s.now.snkAbort = false →
    (outputs s).outData = (if cur s = 0xC0 then 0xDC else 0xDD) ∧
    (s.now.outReady = false → step s = .next (tick s)) ∧
    (s.now.outReady = true → s.idx.toNat < s.plen.toNat →
      step s = .next (tick
        { s with cnt := s.cnt + 1, csum := s.csum ^^^ pbufRead s s.idx.toNat, idx := s.idx + 1, st := .body })) ∧
    (s.now.outReady = true → ¬ s.idx.toNat < s.plen.toNat →
      step s = .next (tick { s with cnt := s.cnt + 1, st := .eof }))

/-- R187: EOF presents END with `out_eof`; its acceptance enters RSP with `rerr` and `rcode` as they were, and in a state of
the invariant the count is then the frame length. -/
def Obligations.EndDelimiterStep : Prop :=
  ∀ s : State, s.st = .eof → s.now.rst = false → s.now.snkAbort = false →
    (outputs s).outData = 0xC0 ∧ (outputs s).outEof = true ∧
    (s.now.outReady = false → step s = .next (tick s)) ∧
    (s.now.outReady = true → step s = .next (tick { s with cnt := s.cnt + 1, st := .rsp })) ∧
    (BlockInv s → s.cnt + 1 = s.flen ∧ s.rerr = false ∧ s.rcode = 0)

/-- R188, R182: in a transfer state an abort is tested first. The byte presented counts if it is accepted at that edge, the
error is recorded, RSP is entered, and `idx`, `csum`, `pbuf` and `flen` are not changed. In a state of the invariant an
abort in EOF with `out_ready = 1` has the whole frame counted. -/
def Obligations.SinkAbortStep : Prop :=
  ∀ s : State, s.st.transfer = true → s.now.rst = false → s.now.snkAbort = true →
    step s = .next (tick
      { s with
        cnt := if s.now.outReady then s.cnt + 1 else s.cnt
        rerr := s.now.snkErr
        rcode := if s.now.snkErr then s.now.snkErrCode % 2 ^ s.params.errW else 0
        st := .rsp }) ∧
    (BlockInv s → s.st = .eof → s.now.outReady = true → s.cnt + 1 = s.flen)

/-- R201, R207, R204: a sink error reaches the response unchanged, with the exact count, and stays there until it is
taken. -/
def Obligations.SinkErrorReachesResponse : Prop :=
  ∀ s : State, BlockInv s → s.st.transfer = true → s.now.rst = false → s.now.snkAbort = true → s.now.snkErr = true →
    s.now.snkErrCode < 2 ^ s.params.errW →
      ∃ t, step s = .next t ∧ (outputs t).rspValid = true ∧ (outputs t).rspErr = true ∧
        completion (outputs t) = some .sinkError ∧ Completion.sinkError.code = 2 ∧ t.rerr = true ∧ t.rcode = s.now.snkErrCode ∧
        (outputs t).rspErrCode = s.now.snkErrCode ∧ (outputs t).rspLen = s.flen ∧
        (outputs t).rspCount.toNat = s.cnt.toNat + (if byteAccepted s then 1 else 0) ∧
        ∀ n u, allEdges waiting n t = true → runEdges n t = .next u →
          (outputs u).rspValid = true ∧ (outputs u).rspErr = true ∧ (outputs u).rspErrCode = s.now.snkErrCode ∧
          (outputs u).rspLen = s.flen ∧ (outputs u).rspCount = (outputs t).rspCount

/-- R202: a sink abort without an error ends the frame with `rerr = 0`, `rcode = 0` and a count below the frame length,
except at EOF with `out_ready = 1`, where the count is the length. -/
def Obligations.ShortWriteCount : Prop :=
  ∀ s : State, BlockInv s → s.st.transfer = true → s.now.rst = false → s.now.snkAbort = true → s.now.snkErr = false →
    ∃ t, step s = .next t ∧ t.st = .rsp ∧ t.rerr = false ∧ t.rcode = 0 ∧
      (if s.st = .eof ∧ s.now.outReady = true then
        t.cnt = t.flen ∧ completion (outputs t) = some .ok
      else
        t.cnt.toNat < t.flen.toNat ∧ completion (outputs t) = some .short)

/-- R189, R190, R208: RSP presents the record; taking it returns to IDLE and restores no register, and nothing changes
before. -/
def Obligations.ResponseStep : Prop :=
  ∀ s : State, s.st = .rsp → s.now.rst = false →
    (outputs s).rspValid = true ∧ (outputs s).rspCount = s.cnt ∧ (outputs s).rspLen = s.flen ∧
    (outputs s).rspErr = s.rerr ∧ (outputs s).rspErrCode = s.rcode ∧ (outputs s).cmdReady = false ∧
    (s.now.rspReady = true → step s = .next (tick { s with st := .idle })) ∧
    (s.now.rspReady = false → step s = .next (tick s))

/-- R193, R181: there is no timeout. While nothing that the block waits for happens, no register changes, for any number of
edges. -/
def Obligations.WaitingChangesNothing : Prop :=
  ∀ (n : Nat) (s : State), allEdges waiting n s = true →
    runEdges n s = .next { s with inputs := s.inputs.drop n, cycle := s.cycle + n }

/-- R194, R195: the next FSM state at an edge with `rst = 0`; in particular a frame starts only from an accepted request. -/
def Obligations.NextFsmState : Prop :=
  ∀ s t : State, s.now.rst = false → step s = .next t →
    t.st =
      match s.st with
      | .idle => if s.now.cmdValid then .sof else .idle
      | .sof => if s.now.snkAbort then .rsp else if s.now.outReady then .body else .sof
      | .body =>
        if s.now.snkAbort then .rsp
        else if !s.now.outReady then .body
        else if cur s = 0xC0 ∨ cur s = 0xDB then .esc2
        else if s.idx.toNat < s.plen.toNat then .body
        else .eof
      | .esc2 =>
        if s.now.snkAbort then .rsp
        else if !s.now.outReady then .esc2
        else if s.idx.toNat < s.plen.toNat then .body
        else .eof
      | .eof => if s.now.snkAbort then .rsp else if s.now.outReady then .rsp else .eof
      | .rsp => if s.now.rspReady then .idle else .rsp

/-- R37: at an edge without reset only the acceptance of a request writes `pbuf`; the same holds of `plen` and `flen`. -/
def Obligations.OnlyAcceptanceWritesBuffer : Prop :=
  ∀ s t : State, s.now.rst = false → step s = .next t → requestAccepted s = false →
    t.pbuf = s.pbuf ∧ t.plen = s.plen ∧ t.flen = s.flen

/-- R38: in a state of the invariant the pointer goes to 0 at reset and at acceptance, forward by 1 where the last wire byte
of a payload byte is accepted, and stays otherwise; it never passes `plen`. -/
def Obligations.PointerMovesForward : Prop :=
  ∀ s t : State, BlockInv s → step s = .next t →
    t.idx.toNat ≤ t.plen.toNat ∧
    t.idx.toNat =
      if s.now.rst || requestAccepted s then 0
      else if byteAccepted s && !s.now.snkAbort && decide (s.idx.toNat < s.plen.toNat) &&
          (s.st == .esc2 || (s.st == .body && !reserved (cur s))) then s.idx.toNat + 1
      else s.idx.toNat

/-- R31, R211: in a state of the invariant the counter is cleared at reset and at acceptance, goes up by 1 at every edge
where a byte is accepted, aborts included, and stays otherwise; it never wraps. -/
def Obligations.CounterCountsAcceptedBytes : Prop :=
  ∀ s t : State, BlockInv s → step s = .next t →
    t.cnt.toNat ≤ 39 ∧
    t.cnt.toNat =
      if s.now.rst || requestAccepted s then 0
      else s.cnt.toNat + (if byteAccepted s then 1 else 0)

/-- R33, R34, R39: the error flag and value change only at reset and acceptance, which clear them, and at a sink abort. -/
def Obligations.ErrorRecordWriters : Prop :=
  ∀ s t : State, step s = .next t →
    (t.rerr, t.rcode) =
      if s.now.rst || requestAccepted s then (false, 0)
      else if s.st.transfer && s.now.snkAbort then
        (s.now.snkErr, if s.now.snkErr then s.now.snkErrCode % 2 ^ s.params.errW else 0)
      else (s.rerr, s.rcode)

/-- R40, R5, R220: no edge changes the parameters, reset included. That they are a field of State, and that every edge
passes one cycle's inputs and counts one cycle, is the model's choice (notes/assumptions 1 to 3). -/
def Obligations.ParametersAreFixed : Prop :=
  ∀ s t : State, step s = .next t → t.params = s.params ∧ t.inputs = s.inputs.tail ∧ t.cycle = s.cycle + 1

/-- R106, R200: no state and no request stops the block; every edge has a next state. -/
def Obligations.BlockNeverStops : Prop :=
  (∀ s : State, ∃ t, step s = .next t) ∧ ∀ (i : Instr) (s : State), ∃ t, exec i s = .next t

/-- R191: the inputs that no rule reads in a state have no effect on the step. -/
def Obligations.IgnoredInputs : Prop :=
  ∀ (s : State) (a b : Inputs) (rest : List Inputs),
    a.rst = b.rst →
    (s.st = .idle → a.cmdValid = b.cmdValid ∧ (a.cmdValid = true → requestWord a = requestWord b)) →
    (s.st.transfer = true → a.outReady = b.outReady ∧ a.snkAbort = b.snkAbort ∧
      (a.snkAbort = true → a.snkErr = b.snkErr ∧
        (a.snkErr = true → a.snkErrCode % 2 ^ s.params.errW = b.snkErrCode % 2 ^ s.params.errW))) →
    (s.st = .rsp → a.rspReady = b.rspReady) →
      step { s with inputs := a :: rest } = step { s with inputs := b :: rest }

/-! ### Outputs -/

/-- R36: the output table. -/
def Obligations.OutputTable : Prop :=
  ∀ (rst : Bool) (s : State),
    (outputsAt rst s).cmdReady = (decide (s.st = .idle) && !rst) ∧
    (outputsAt rst s).outValid =
      (decide (s.st = .sof) || decide (s.st = .body) || decide (s.st = .esc2) || decide (s.st = .eof)) ∧
    (outputsAt rst s).outData =
      (if s.st = .sof then 0xC0
      else if s.st = .body then (if cur s = 0xC0 ∨ cur s = 0xDB then 0xDB else cur s)
      else if s.st = .esc2 then (if cur s = 0xC0 then 0xDC else 0xDD)
      else if s.st = .eof then 0xC0
      else 0x00) ∧
    (outputsAt rst s).outSof = decide (s.st = .sof) ∧ (outputsAt rst s).outEof = decide (s.st = .eof) ∧
    (outputsAt rst s).rspValid = decide (s.st = .rsp) ∧
    (outputsAt rst s).rspCount = s.cnt ∧ (outputsAt rst s).rspLen = s.flen ∧ (outputsAt rst s).rspErr = s.rerr ∧
    (outputsAt rst s).rspErrCode = s.rcode ∧ (outputsAt rst s).busy = decide (s.st ≠ .idle)

/-- R192: in a state of the invariant, while a transfer state waits the output stream keeps its values, and while RSP waits
the response does. -/
def Obligations.WaitingOutputsAreStable : Prop :=
  ∀ (n : Nat) (s t : State), BlockInv s → allEdges waiting n s = true → runEdges n s = .next t →
    (s.st.transfer = true →
      (outputs t).outValid = true ∧ (outputs t).outData = (outputs s).outData ∧
      (outputs t).outSof = (outputs s).outSof ∧ (outputs t).outEof = (outputs s).outEof) ∧
    (s.st = .rsp →
      (outputs t).rspValid = true ∧ (outputs t).rspCount = (outputs s).rspCount ∧
      (outputs t).rspLen = (outputs s).rspLen ∧ (outputs t).rspErr = (outputs s).rspErr ∧
      (outputs t).rspErrCode = (outputs s).rspErrCode)

/-- R221, R224: at a reset edge nothing is accepted or taken, and after it nothing is presented and the block is ready for a
request as soon as `rst = 0`. -/
def Obligations.ResetDropsRequest : Prop :=
  ∀ s t : State, s.now.rst = true → step s = .next t →
    requestAccepted s = false ∧ byteAccepted s = false ∧ responseTaken s = false ∧
    (outputs t).outValid = false ∧ (outputs t).rspValid = false ∧ (outputs t).busy = false ∧
    ((outputs t).cmdReady = true ↔ t.now.rst = false)

/-- R203: a response of a state of the invariant has exactly one outcome, and its count is at most the length. -/
def Obligations.ResponseOutcome : Prop :=
  ∀ s : State, BlockInv s → s.st = .rsp →
    (outputs s).rspCount.toNat ≤ (outputs s).rspLen.toNat ∧
    (∃ c, completion (outputs s) = some c) ∧
    (Completion.ok.code = 0 ∧ Completion.short.code = 1 ∧ Completion.sinkError.code = 2) ∧
    (completion (outputs s) = some .ok ↔ s.rerr = false ∧ s.cnt.toNat = s.flen.toNat) ∧
    (completion (outputs s) = some .short ↔ s.rerr = false ∧ s.cnt.toNat < s.flen.toNat) ∧
    (completion (outputs s) = some .sinkError ↔ s.rerr = true)

/-! ### The invariant and whole runs -/

/-- R220, R42: the reset state meets the invariant. The three model's own fields have the values of notes/assumptions 1
to 3. -/
def Obligations.ResetMeetsInvariant : Prop := BlockInv State.reset

/-- R42: every step keeps the invariant, from every state that meets it. -/
def Obligations.EveryStepKeepsInvariant : Prop :=
  ∀ s t : State, BlockInv s → step s = .next t → BlockInv t

/-- R42 (items 1 to 6 and 8), R220: from a state of any register values, after a reset edge, every reachable state
satisfies the facts of R42, whatever the inputs. That such a state stands for power-up is the model's reading of R222
(notes/assumptions 10, DEDUCED). -/
def Obligations.ReachableStatesAfterReset : Prop :=
  ∀ (n : Nat) (s t : State), 1 ≤ s.params.errW → s.now.rst = true → runEdges (n + 1) s = .next t → ReachableFacts t

/-- R139: from an acceptance on, while there is no reset and the block has not returned to IDLE, the bytes accepted are the
prefix of the request's frame of length `cnt`; where the end delimiter was accepted without an abort they are the whole
frame, of length `flen`. -/
def Obligations.FrameCorrectness : Prop :=
  ∀ (n : Nat) (i : Instr) (s u t : State),
    fetch s = some i → step s = .next u → allEdges inFlight n u = true → runEdges n u = .next t →
      let frame := encodeFrame s.params.fadePolicy i.addr i.code (argList i.argc i.args)
      wire (n + 1) s = frame.take t.cnt.toNat ∧
      t.cnt.toNat = (wire (n + 1) s).length ∧
      t.flen.toNat = frame.length ∧
      (outputs t).rspCount.toNat = (wire (n + 1) s).length ∧
      (outputs t).rspLen.toNat = frame.length ∧
      ((∃ k v, k < n ∧ runEdges k u = .next v ∧ v.st = .eof ∧ sinkReady v = true) →
        wire (n + 1) s = frame ∧ t.cnt = t.flen)

/-- R229, R230: with a sink that always accepts, wire byte `k` of the frame is presented in cycle `k` after the acceptance,
RSP in the cycle after the last byte, and IDLE in the cycle after a response taken at once: `flen + 2` cycles in all. -/
def Obligations.UnstalledFrameTiming : Prop :=
  ∀ (i : Instr) (s u : State),
    fetch s = some i → step s = .next u →
    let frame := encodeFrame s.params.fadePolicy i.addr i.code (argList i.argc i.args)
    allEdges sinkReady frame.length u = true →
      (∀ k < frame.length, ∃ v, runEdges (k + 1) s = .next v ∧ (outputs v).outValid = true ∧
        some (outputs v).outData = frame[k]?) ∧
      ∃ t, runEdges (frame.length + 1) s = .next t ∧ t.st = .rsp ∧ t.rerr = false ∧ t.rcode = 0 ∧
        t.cnt.toNat = frame.length ∧ t.flen.toNat = frame.length ∧
        (t.now.rst = false → t.now.rspReady = true →
          ∃ v, runEdges (frame.length + 2) s = .next v ∧ v.st = .idle)

/-- R195, R58: over any run without a reset, the requests accepted are as many as the responses taken, but for the one
request in flight at the end (and the one at the start). -/
def Obligations.OneResponsePerRequest : Prop :=
  ∀ (n : Nat) (s t : State), allEdges noReset n s = true → runEdges n s = .next t →
    countEdges requestAccepted n s + (if s.st = .idle then 0 else 1) =
      countEdges responseTaken n s + (if t.st = .idle then 0 else 1)
end

