-- ==== Sys2Proof/Laws/Bits.lean ====
section
/-! SUPPORT. The fields of the request word (spec/30_encoding.md R71). -/

namespace Sys2Proof

/-- Bit `i` of the request word, field by field. -/
theorem getLsbD_mkReq (a : Addr) (c : Byte) (n : Argc) (x : Lanes) (i : Nat) :
    (mkReq a c n x).getLsbD i =
      if i < 16 then a.getLsbD i
      else if i < 24 then c.getLsbD (i - 16)
      else if i < 28 then n.getLsbD (i - 24)
      else x.getLsbD (i - 28) := by
  simp only [mkReq, BitVec.getLsbD_cast]
  rw [BitVec.getLsbD_append, BitVec.getLsbD_append, BitVec.getLsbD_append]
  repeat' split
  all_goals first | rfl | omega

@[simp] theorem reqAddr_mkReq (a : Addr) (c : Byte) (n : Argc) (x : Lanes) : reqAddr (mkReq a c n x) = a := by
  apply BitVec.eq_of_getLsbD_eq
  intro i hi
  simp [reqAddr, getLsbD_mkReq, hi]

@[simp] theorem reqCode_mkReq (a : Addr) (c : Byte) (n : Argc) (x : Lanes) : reqCode (mkReq a c n x) = c := by
  apply BitVec.eq_of_getLsbD_eq
  intro i hi
  simp [reqCode, getLsbD_mkReq, hi]
  omega

@[simp] theorem reqArgc_mkReq (a : Addr) (c : Byte) (n : Argc) (x : Lanes) : reqArgc (mkReq a c n x) = n := by
  apply BitVec.eq_of_getLsbD_eq
  intro i hi
  have h : ¬ 24 + i < 24 := by omega
  have k : ¬ 24 + i < 16 := by omega
  have l : 24 + i < 28 := by omega
  simp [reqArgc, getLsbD_mkReq, hi, h, k, l]

@[simp] theorem reqArgs_mkReq (a : Addr) (c : Byte) (n : Argc) (x : Lanes) : reqArgs (mkReq a c n x) = x := by
  apply BitVec.eq_of_getLsbD_eq
  intro i hi
  have h : ¬ 28 + i < 24 := by omega
  have k : ¬ 28 + i < 16 := by omega
  simp [reqArgs, getLsbD_mkReq, hi, h, k]

end Sys2Proof
end

