-- ==== Sys2Proof/Laws/Lists.lean ====
section
/-! SUPPORT. The pure functions of the packer, the checksum generator and the escape FSM: how each goes over a list. -/

namespace Sys2Proof.Machine

/-! ### The checksum -/

@[simp] theorem xorFold_nil : xorFold [] = 0 := rfl

/-- R120: the defining equation at the end of a list. -/
@[simp] theorem xorFold_snoc (l : List Byte) (b : Byte) : xorFold (l ++ [b]) = xorFold l ^^^ b := by
  simp [xorFold]

theorem foldl_xor (l : List Byte) (a : Byte) : l.foldl (· ^^^ ·) a = a ^^^ xorFold l := by
  induction l generalizing a with
  | nil => simp
  | cons b l ih =>
    have e : xorFold (b :: l) = b ^^^ xorFold l := by
      rw [xorFold, List.foldl_cons, ih]; simp
    rw [List.foldl_cons, ih, e, BitVec.xor_assoc]

@[simp] theorem xorFold_cons (b : Byte) (l : List Byte) : xorFold (b :: l) = b ^^^ xorFold l := by
  rw [xorFold, List.foldl_cons, foldl_xor]; simp

theorem xorFold_append (l m : List Byte) : xorFold (l ++ m) = xorFold l ^^^ xorFold m := by
  induction l with
  | nil => simp
  | cons b l ih => simp [ih, BitVec.xor_assoc]

@[simp] theorem withChecksum_length (p : List Byte) : (withChecksum p).length = p.length + 1 := by
  simp [withChecksum]

/-! ### Escaping -/

@[simp] theorem escapeAll_nil : escapeAll [] = [] := rfl

@[simp] theorem escapeAll_cons (b : Byte) (p : List Byte) : escapeAll (b :: p) = escapeByte b ++ escapeAll p := rfl

theorem escapeAll_append (p q : List Byte) : escapeAll (p ++ q) = escapeAll p ++ escapeAll q := by
  simp [escapeAll]

/-- R130: the three cases of a byte's escape. -/
theorem escapeByte_cases (b : Byte) :
    (b = endByte ∧ escapeByte b = [escByte, escEnd]) ∨ (b = escByte ∧ escapeByte b = [escByte, escEsc]) ∨
      (b ≠ endByte ∧ b ≠ escByte ∧ escapeByte b = [b]) := by
  unfold escapeByte
  by_cases h : b = endByte
  · simp [h]
  · by_cases k : b = escByte <;> simp [h, k]
    subst k; decide

theorem reserved_iff (b : Byte) : reserved b = true ↔ b = endByte ∨ b = escByte := by simp [reserved]

/-- R137: the escape of a byte in terms of what BODY and ESC2 present. -/
theorem escapeByte_eq (b : Byte) : escapeByte b = if reserved b then [escFirst b, escSecond b] else [escFirst b] := by
  rcases escapeByte_cases b with ⟨h, e⟩ | ⟨h, e⟩ | ⟨h, k, e⟩
  · subst h; decide
  · subst h; decide
  · simp [e, escFirst, reserved, h, k]

theorem escapeByte_length (b : Byte) : (escapeByte b).length = if reserved b then 2 else 1 := by
  rw [escapeByte_eq]; split <;> rfl

theorem escapeByte_length_pos (b : Byte) : 1 ≤ (escapeByte b).length := by
  rw [escapeByte_length]; split <;> omega

theorem length_escapeAll (p : List Byte) : (escapeAll p).length = (p.map fun b => (escapeByte b).length).sum := by
  simp [escapeAll, List.length_flatMap]

theorem length_escapeWrap (p : List Byte) : (escapeWrap p).length = wireLen p := by
  simp [escapeWrap, wireLen, length_escapeAll]; omega

/-! ### The packer -/

@[simp] theorem split16_length (a : Addr) : (split16 a).length = 2 := rfl

@[simp] theorem argList_length (n : Argc) (x : Lanes) : (argList n x).length = n.toNat := by simp [argList]

@[simp] theorem formArgs_length (pol : FadePolicy) (c : Byte) (r : List Byte) : (formArgs pol c r).length = r.length := by
  simp [formArgs]

@[simp] theorem payload_length (a : Addr) (c : Byte) (r : List Byte) : (payload a c r).length = 3 + r.length := by
  simp [payload]; omega

@[simp] theorem requestPayload_length (pol : FadePolicy) (a : Addr) (c : Byte) (n : Argc) (x : Lanes) :
    (requestPayload pol a c n x).length = 3 + n.toNat := by
  simp [requestPayload]

/-- R103: under PASS_THROUGH, formation is the identity. -/
theorem formArgs_passThrough (c : Byte) (r : List Byte) : formArgs .passThrough c r = r := by
  apply List.ext_getElem <;> simp [formArgs, formByte]

/-- R103: a code other than 0x23 and 0x31 passes its bytes unchanged. -/
theorem formArgs_unfaded {c : Byte} (h : c ≠ codeFadeToLevel) (k : c ≠ codeFadeRgbToLevel) (pol : FadePolicy)
    (r : List Byte) : formArgs pol c r = r := by
  cases pol
  · exact formArgs_passThrough c r
  · apply List.ext_getElem <;> simp [formArgs, formByte, intervalPositions, stepPositions, h, k]

end Sys2Proof.Machine
end

