-- ==== Sys2Proof/Laws/PerInstr.lean ====
section
/-! SUPPORT. The family EncodedCode: an instruction's word carries its row's code in `REQ[23:16]`
(spec/opcode_table.json, "fixed"; `frame` carries the code it names, R161). -/

namespace Sys2Proof.Laws.EncodedCode

/-- The code in bits 23 to 16 of the instruction's word. -/
def Statement (i : Instr) : Prop := (encode i).extractLsb' 16 8 = i.code

theorem powerOn (a : Addr) (n : Argc) (x : Lanes) : Statement (.powerOn a n x) := reqCode_mkReq _ _ _ _

theorem powerOff (a : Addr) (n : Argc) (x : Lanes) : Statement (.powerOff a n x) := reqCode_mkReq _ _ _ _

theorem setLevel (a : Addr) (n : Argc) (x : Lanes) : Statement (.setLevel a n x) := reqCode_mkReq _ _ _ _

theorem fadeToLevel (a : Addr) (n : Argc) (x : Lanes) : Statement (.fadeToLevel a n x) := reqCode_mkReq _ _ _ _

theorem legacyFadeDown (a : Addr) (n : Argc) (x : Lanes) : Statement (.legacyFadeDown a n x) := reqCode_mkReq _ _ _ _

theorem setPseudoAddress (a : Addr) (n : Argc) (x : Lanes) : Statement (.setPseudoAddress a n x) := reqCode_mkReq _ _ _ _

theorem erasePseudoAddressTable (a : Addr) (n : Argc) (x : Lanes) : Statement (.erasePseudoAddressTable a n x) := reqCode_mkReq _ _ _ _

theorem setRgbLevels (a : Addr) (n : Argc) (x : Lanes) : Statement (.setRgbLevels a n x) := reqCode_mkReq _ _ _ _

theorem toggle (a : Addr) (n : Argc) (x : Lanes) : Statement (.toggle a n x) := reqCode_mkReq _ _ _ _

theorem fadeMultipleToLevel (a : Addr) (n : Argc) (x : Lanes) : Statement (.fadeMultipleToLevel a n x) := reqCode_mkReq _ _ _ _

theorem fadeRgbToLevel (a : Addr) (n : Argc) (x : Lanes) : Statement (.fadeRgbToLevel a n x) := reqCode_mkReq _ _ _ _

theorem frame (a : Addr) (c : Byte) (n : Argc) (x : Lanes) : Statement (.frame a c n x) := reqCode_mkReq _ _ _ _

end Sys2Proof.Laws.EncodedCode
end

