-- ==== Sys2Proof/Laws/State.lean ====
section
/-! SUPPORT. What each operation leaves in each field of the state, one lemma per field per operation. -/

namespace Sys2Proof.Machine

/-! ### `tick` -/

@[simp] theorem tick_st (s : State) : (tick s).st = s.st := rfl
@[simp] theorem tick_pbuf (s : State) : (tick s).pbuf = s.pbuf := rfl
@[simp] theorem tick_plen (s : State) : (tick s).plen = s.plen := rfl
@[simp] theorem tick_idx (s : State) : (tick s).idx = s.idx := rfl
@[simp] theorem tick_csum (s : State) : (tick s).csum = s.csum := rfl
@[simp] theorem tick_cnt (s : State) : (tick s).cnt = s.cnt := rfl
@[simp] theorem tick_flen (s : State) : (tick s).flen = s.flen := rfl
@[simp] theorem tick_rerr (s : State) : (tick s).rerr = s.rerr := rfl
@[simp] theorem tick_rcode (s : State) : (tick s).rcode = s.rcode := rfl
@[simp] theorem tick_params (s : State) : (tick s).params = s.params := rfl
@[simp] theorem tick_inputs (s : State) : (tick s).inputs = s.inputs.tail := rfl
@[simp] theorem tick_cycle (s : State) : (tick s).cycle = s.cycle + 1 := rfl

/-! ### `latch` -/

@[simp] theorem latch_st (p : List Byte) (s : State) : (latch p s).st = s.st := rfl
@[simp] theorem latch_pbuf (p : List Byte) (s : State) : (latch p s).pbuf = latchBuf p := rfl
@[simp] theorem latch_plen (p : List Byte) (s : State) : (latch p s).plen = BitVec.ofNat 5 p.length := rfl
@[simp] theorem latch_idx (p : List Byte) (s : State) : (latch p s).idx = s.idx := rfl
@[simp] theorem latch_csum (p : List Byte) (s : State) : (latch p s).csum = s.csum := rfl
@[simp] theorem latch_cnt (p : List Byte) (s : State) : (latch p s).cnt = s.cnt := rfl
@[simp] theorem latch_flen (p : List Byte) (s : State) : (latch p s).flen = s.flen := rfl
@[simp] theorem latch_rerr (p : List Byte) (s : State) : (latch p s).rerr = s.rerr := rfl
@[simp] theorem latch_rcode (p : List Byte) (s : State) : (latch p s).rcode = s.rcode := rfl
@[simp] theorem latch_params (p : List Byte) (s : State) : (latch p s).params = s.params := rfl
@[simp] theorem latch_inputs (p : List Byte) (s : State) : (latch p s).inputs = s.inputs := rfl
@[simp] theorem latch_cycle (p : List Byte) (s : State) : (latch p s).cycle = s.cycle := rfl

/-! ### `accept` -/

@[simp] theorem accept_st (p : List Byte) (s : State) : (accept p s).st = .sof := rfl
@[simp] theorem accept_pbuf (p : List Byte) (s : State) : (accept p s).pbuf = latchBuf p := rfl
@[simp] theorem accept_plen (p : List Byte) (s : State) : (accept p s).plen = BitVec.ofNat 5 p.length := rfl
@[simp] theorem accept_idx (p : List Byte) (s : State) : (accept p s).idx = 0 := rfl
@[simp] theorem accept_csum (p : List Byte) (s : State) : (accept p s).csum = 0 := rfl
@[simp] theorem accept_cnt (p : List Byte) (s : State) : (accept p s).cnt = 0 := rfl
@[simp] theorem accept_flen (p : List Byte) (s : State) : (accept p s).flen = BitVec.ofNat 6 (wireLen (withChecksum p)) := rfl
@[simp] theorem accept_rerr (p : List Byte) (s : State) : (accept p s).rerr = false := rfl
@[simp] theorem accept_rcode (p : List Byte) (s : State) : (accept p s).rcode = 0 := rfl
@[simp] theorem accept_params (p : List Byte) (s : State) : (accept p s).params = s.params := rfl
@[simp] theorem accept_inputs (p : List Byte) (s : State) : (accept p s).inputs = s.inputs := rfl
@[simp] theorem accept_cycle (p : List Byte) (s : State) : (accept p s).cycle = s.cycle := rfl

/-! ### `resetEdge` -/

@[simp] theorem resetEdge_st (s : State) : (resetEdge s).st = .idle := rfl
@[simp] theorem resetEdge_pbuf (s : State) : (resetEdge s).pbuf = Vector.replicate Config.pbufSize 0 := rfl
@[simp] theorem resetEdge_plen (s : State) : (resetEdge s).plen = 0 := rfl
@[simp] theorem resetEdge_idx (s : State) : (resetEdge s).idx = 0 := rfl
@[simp] theorem resetEdge_csum (s : State) : (resetEdge s).csum = 0 := rfl
@[simp] theorem resetEdge_cnt (s : State) : (resetEdge s).cnt = 0 := rfl
@[simp] theorem resetEdge_flen (s : State) : (resetEdge s).flen = 0 := rfl
@[simp] theorem resetEdge_rerr (s : State) : (resetEdge s).rerr = false := rfl
@[simp] theorem resetEdge_rcode (s : State) : (resetEdge s).rcode = 0 := rfl
@[simp] theorem resetEdge_params (s : State) : (resetEdge s).params = s.params := rfl
@[simp] theorem resetEdge_inputs (s : State) : (resetEdge s).inputs = s.inputs := rfl
@[simp] theorem resetEdge_cycle (s : State) : (resetEdge s).cycle = s.cycle := rfl

/-! ### `countByte` -/

@[simp] theorem countByte_st (s : State) : (countByte s).st = s.st := rfl
@[simp] theorem countByte_pbuf (s : State) : (countByte s).pbuf = s.pbuf := rfl
@[simp] theorem countByte_plen (s : State) : (countByte s).plen = s.plen := rfl
@[simp] theorem countByte_idx (s : State) : (countByte s).idx = s.idx := rfl
@[simp] theorem countByte_csum (s : State) : (countByte s).csum = s.csum := rfl
@[simp] theorem countByte_cnt (s : State) : (countByte s).cnt = s.cnt + 1 := rfl
@[simp] theorem countByte_flen (s : State) : (countByte s).flen = s.flen := rfl
@[simp] theorem countByte_rerr (s : State) : (countByte s).rerr = s.rerr := rfl
@[simp] theorem countByte_rcode (s : State) : (countByte s).rcode = s.rcode := rfl
@[simp] theorem countByte_params (s : State) : (countByte s).params = s.params := rfl
@[simp] theorem countByte_inputs (s : State) : (countByte s).inputs = s.inputs := rfl
@[simp] theorem countByte_cycle (s : State) : (countByte s).cycle = s.cycle := rfl

/-! ### `enterResponse` -/

@[simp] theorem enterResponse_st (s : State) : (enterResponse s).st = .rsp := rfl
@[simp] theorem enterResponse_pbuf (s : State) : (enterResponse s).pbuf = s.pbuf := rfl
@[simp] theorem enterResponse_plen (s : State) : (enterResponse s).plen = s.plen := rfl
@[simp] theorem enterResponse_idx (s : State) : (enterResponse s).idx = s.idx := rfl
@[simp] theorem enterResponse_csum (s : State) : (enterResponse s).csum = s.csum := rfl
@[simp] theorem enterResponse_cnt (s : State) : (enterResponse s).cnt = s.cnt := rfl
@[simp] theorem enterResponse_flen (s : State) : (enterResponse s).flen = s.flen := rfl
@[simp] theorem enterResponse_rerr (s : State) : (enterResponse s).rerr = s.rerr := rfl
@[simp] theorem enterResponse_rcode (s : State) : (enterResponse s).rcode = s.rcode := rfl
@[simp] theorem enterResponse_params (s : State) : (enterResponse s).params = s.params := rfl
@[simp] theorem enterResponse_inputs (s : State) : (enterResponse s).inputs = s.inputs := rfl
@[simp] theorem enterResponse_cycle (s : State) : (enterResponse s).cycle = s.cycle := rfl

/-! ### `takeResponse` -/

@[simp] theorem takeResponse_st (s : State) : (takeResponse s).st = .idle := rfl
@[simp] theorem takeResponse_pbuf (s : State) : (takeResponse s).pbuf = s.pbuf := rfl
@[simp] theorem takeResponse_plen (s : State) : (takeResponse s).plen = s.plen := rfl
@[simp] theorem takeResponse_idx (s : State) : (takeResponse s).idx = s.idx := rfl
@[simp] theorem takeResponse_csum (s : State) : (takeResponse s).csum = s.csum := rfl
@[simp] theorem takeResponse_cnt (s : State) : (takeResponse s).cnt = s.cnt := rfl
@[simp] theorem takeResponse_flen (s : State) : (takeResponse s).flen = s.flen := rfl
@[simp] theorem takeResponse_rerr (s : State) : (takeResponse s).rerr = s.rerr := rfl
@[simp] theorem takeResponse_rcode (s : State) : (takeResponse s).rcode = s.rcode := rfl
@[simp] theorem takeResponse_params (s : State) : (takeResponse s).params = s.params := rfl
@[simp] theorem takeResponse_inputs (s : State) : (takeResponse s).inputs = s.inputs := rfl
@[simp] theorem takeResponse_cycle (s : State) : (takeResponse s).cycle = s.cycle := rfl

/-! ### `sinkAbort` -/

@[simp] theorem sinkAbort_st (inp : Inputs) (s : State) : (sinkAbort inp s).st = .rsp := rfl
@[simp] theorem sinkAbort_pbuf (inp : Inputs) (s : State) : (sinkAbort inp s).pbuf = s.pbuf := by
  cases inp with | mk rst v a c n x ready ab err code rr => cases ready <;> rfl
@[simp] theorem sinkAbort_plen (inp : Inputs) (s : State) : (sinkAbort inp s).plen = s.plen := by
  cases inp with | mk rst v a c n x ready ab err code rr => cases ready <;> rfl
@[simp] theorem sinkAbort_idx (inp : Inputs) (s : State) : (sinkAbort inp s).idx = s.idx := by
  cases inp with | mk rst v a c n x ready ab err code rr => cases ready <;> rfl
@[simp] theorem sinkAbort_csum (inp : Inputs) (s : State) : (sinkAbort inp s).csum = s.csum := by
  cases inp with | mk rst v a c n x ready ab err code rr => cases ready <;> rfl
@[simp] theorem sinkAbort_cnt (inp : Inputs) (s : State) : (sinkAbort inp s).cnt = (if inp.outReady then s.cnt + 1 else s.cnt) := by
  cases inp with | mk rst v a c n x ready ab err code rr => cases ready <;> rfl
@[simp] theorem sinkAbort_flen (inp : Inputs) (s : State) : (sinkAbort inp s).flen = s.flen := by
  cases inp with | mk rst v a c n x ready ab err code rr => cases ready <;> rfl
@[simp] theorem sinkAbort_rerr (inp : Inputs) (s : State) : (sinkAbort inp s).rerr = inp.snkErr := rfl
@[simp] theorem sinkAbort_rcode (inp : Inputs) (s : State) : (sinkAbort inp s).rcode = (if inp.snkErr then errToken s.params inp else 0) := by
  cases inp with | mk rst v a c n x ready ab err code rr => cases ready <;> rfl
@[simp] theorem sinkAbort_params (inp : Inputs) (s : State) : (sinkAbort inp s).params = s.params := by
  cases inp with | mk rst v a c n x ready ab err code rr => cases ready <;> rfl
@[simp] theorem sinkAbort_inputs (inp : Inputs) (s : State) : (sinkAbort inp s).inputs = s.inputs := by
  cases inp with | mk rst v a c n x ready ab err code rr => cases ready <;> rfl
@[simp] theorem sinkAbort_cycle (inp : Inputs) (s : State) : (sinkAbort inp s).cycle = s.cycle := by
  cases inp with | mk rst v a c n x ready ab err code rr => cases ready <;> rfl

/-! ### `advance` -/

@[simp] theorem advance_st (s : State) : (advance s).st = (if s.idx < s.plen then .body else .eof) := by
  unfold advance; split <;> rfl
@[simp] theorem advance_pbuf (s : State) : (advance s).pbuf = s.pbuf := by
  unfold advance; split <;> rfl
@[simp] theorem advance_plen (s : State) : (advance s).plen = s.plen := by
  unfold advance; split <;> rfl
@[simp] theorem advance_idx (s : State) : (advance s).idx = (if s.idx < s.plen then s.idx + 1 else s.idx) := by
  unfold advance; split <;> rfl
@[simp] theorem advance_csum (s : State) : (advance s).csum = (if s.idx < s.plen then s.csum ^^^ pbufRead s s.idx.toNat else s.csum) := by
  unfold advance; split <;> rfl
@[simp] theorem advance_cnt (s : State) : (advance s).cnt = s.cnt := by
  unfold advance; split <;> rfl
@[simp] theorem advance_flen (s : State) : (advance s).flen = s.flen := by
  unfold advance; split <;> rfl
@[simp] theorem advance_rerr (s : State) : (advance s).rerr = s.rerr := by
  unfold advance; split <;> rfl
@[simp] theorem advance_rcode (s : State) : (advance s).rcode = s.rcode := by
  unfold advance; split <;> rfl
@[simp] theorem advance_params (s : State) : (advance s).params = s.params := by
  unfold advance; split <;> rfl
@[simp] theorem advance_inputs (s : State) : (advance s).inputs = s.inputs := by
  unfold advance; split <;> rfl
@[simp] theorem advance_cycle (s : State) : (advance s).cycle = s.cycle := by
  unfold advance; split <;> rfl

/-! ### Reads through an operation -/

theorem pbufRead_congr {s t : State} (h : t.pbuf = s.pbuf) (c : t.cycle = s.cycle) (i : Nat) :
    pbufRead t i = pbufRead s i := by
  simp [pbufRead, h, c]

theorem pbufRead_of_lt {s : State} {i : Nat} (h : i < 18) : pbufRead s i = s.pbuf[i] := by
  simp [pbufRead, h]

@[simp] theorem pbufRead_countByte (s : State) (i : Nat) : pbufRead (countByte s) i = pbufRead s i := rfl

@[simp] theorem cur_countByte (s : State) : cur (countByte s) = cur s := rfl

@[simp] theorem now_countByte (s : State) : (countByte s).now = s.now := rfl


end Sys2Proof.Machine
end

