-- ==== Sys2Proof/Laws/Step.lean ====
section
/-! SUPPORT. What a step can do: one lemma for each shared operation, and the inversion of `step`. -/

namespace Sys2Proof.Machine

/-! ### The payload buffer -/

/-- R105: the buffer's bytes after the latch. -/
theorem latchBuf_getElem (p : List Byte) (j : Nat) (h : j < Config.pbufSize) : (latchBuf p)[j] = p.getD j 0 := by
  change ((List.range Config.pbufSize).map fun j => p.getD j 0)[j]'(by simpa using h) = _
  simp

theorem latchBuf_toList (p : List Byte) : (latchBuf p).toList = (List.range 18).map fun j => p.getD j 0 := rfl

/-- R105: a payload of at most 18 bytes is in the buffer's first entries. -/
theorem latchBuf_take {p : List Byte} (h : p.length ≤ 18) : (latchBuf p).toList.take p.length = p := by
  rw [latchBuf_toList]
  apply List.ext_getElem
  · simp; omega
  · intro i h1 h2
    simp [h2]

/-- R105: the payload that the registers hold after the latch. -/
theorem heldPayload_accept {p : List Byte} (h : p.length ≤ 18) (s : State) : heldPayload (accept p s) = p := by
  have e : (BitVec.ofNat 5 p.length).toNat = p.length := by simp; omega
  simp only [heldPayload, accept_pbuf, accept_plen, e, latchBuf_take h]

theorem heldFrame_accept {p : List Byte} (h : p.length ≤ 18) (s : State) :
    heldFrame (accept p s) = escapeWrap (withChecksum p) := by
  rw [heldFrame, heldPayload_accept h]

/-! ### Instructions -/

/-- R149: every command is its code's request. -/
theorem exec_eq_request (i : Instr) (s : State) : exec i s = request i.code i.addr i.argc i.args s := by
  cases i <;> rfl

/-- R22, R36: when a request is accepted. -/
theorem requestAccepted_iff (s : State) :
    requestAccepted s = true ↔ s.st = .idle ∧ s.now.rst = false ∧ s.now.cmdValid = true := by
  simp [requestAccepted, outputs, outputsAt, cmdReady]
  tauto

/-- R22, R71: which instruction an accepted request is. -/
theorem fetch_eq_some_iff (s : State) (i : Instr) :
    fetch s = some i ↔
      (s.st = .idle ∧ s.now.rst = false ∧ s.now.cmdValid = true) ∧ decode (requestWord s.now) = i := by
  simp [fetch, requestAccepted_iff]

theorem fetch_eq_none_iff (s : State) :
    fetch s = none ↔ ¬ (s.st = .idle ∧ s.now.rst = false ∧ s.now.cmdValid = true) := by
  simp [fetch, ← requestAccepted_iff]

/-- The inversion of `step`: an accepted request, or an edge at which none is accepted. -/
theorem step_cases {s t : State} (h : step s = .next t) :
    (∃ i, fetch s = some i ∧
      t = tick (accept (requestPayload s.params.fadePolicy i.addr i.code i.argc i.args) s)) ∨
    (fetch s = none ∧ t = tick (quietEdge s.now s)) := by
  unfold step at h
  cases e : fetch s with
  | none =>
    simp only [e] at h
    exact .inr ⟨rfl, by injection h with h; exact h.symm⟩
  | some i =>
    have idle := ((fetch_eq_some_iff s i).1 e).1.1
    simp only [e, exec_eq_request, request, if_pos idle, tickOutcome] at h
    exact .inl ⟨i, rfl, by injection h with h; exact h.symm⟩

/-! ### Edges without an acceptance (R180 to R189) -/

theorem quietEdge_reset {inp : Inputs} (h : inp.rst = true) (s : State) : quietEdge inp s = resetEdge s := by
  simp [quietEdge, h]

theorem quietEdge_idle {inp : Inputs} {s : State} (h : inp.rst = false) (k : s.st = .idle) : quietEdge inp s = s := by
  simp [quietEdge, h, k]

theorem quietEdge_sof {inp : Inputs} {s : State} (h : inp.rst = false) (k : s.st = .sof) :
    quietEdge inp s = transferEdge sofAccepted inp s := by
  simp [quietEdge, h, k]

theorem quietEdge_body {inp : Inputs} {s : State} (h : inp.rst = false) (k : s.st = .body) :
    quietEdge inp s = transferEdge bodyAccepted inp s := by
  simp [quietEdge, h, k]

theorem quietEdge_esc2 {inp : Inputs} {s : State} (h : inp.rst = false) (k : s.st = .esc2) :
    quietEdge inp s = transferEdge esc2Accepted inp s := by
  simp [quietEdge, h, k]

theorem quietEdge_eof {inp : Inputs} {s : State} (h : inp.rst = false) (k : s.st = .eof) :
    quietEdge inp s = transferEdge eofAccepted inp s := by
  simp [quietEdge, h, k]

theorem quietEdge_rsp {inp : Inputs} {s : State} (h : inp.rst = false) (k : s.st = .rsp) :
    quietEdge inp s = responseEdge inp s := by
  simp [quietEdge, h, k]

/-- R182, R188, R193: the three things a transfer state can do. -/
theorem transferEdge_cases (f : State → State) (inp : Inputs) (s : State) :
    (inp.snkAbort = true ∧ transferEdge f inp s = sinkAbort inp s) ∨
    (inp.snkAbort = false ∧ inp.outReady = true ∧ transferEdge f inp s = f s) ∨
    (inp.snkAbort = false ∧ inp.outReady = false ∧ transferEdge f inp s = s) := by
  cases h : inp.snkAbort <;> cases k : inp.outReady <;> simp [transferEdge, h, k]

/-- R186: the two things `advance` can do. -/
theorem advance_cases (s : State) :
    (s.idx < s.plen ∧ cur s = pbufRead s s.idx.toNat ∧
      advance s = { s with csum := s.csum ^^^ cur s, idx := s.idx + 1, st := .body }) ∨
    (¬ s.idx < s.plen ∧ cur s = s.csum ∧ advance s = { s with st := .eof }) := by
  by_cases h : s.idx < s.plen
  · exact .inl ⟨h, by simp [cur, h], by simp [advance, cur, h]⟩
  · exact .inr ⟨h, by simp [cur, h], by simp [advance, h]⟩

/-! ### Runs -/

/-- A run of any core goes on from the next state. -/
theorem core_run_succ (M : Host.Core) {s t : M.State} (h : M.step s = .next t) (n : Nat) :
    M.run (n + 1) s = M.run n t := by
  simp [Host.Core.run, h]

theorem core_run_fault (M : Host.Core) {s : M.State} {r : M.Fault} (h : M.step s = .fault r) (n : Nat) :
    M.run (n + 1) s = .fault r := by
  simp [Host.Core.run, h]

theorem core_run_refused (M : Host.Core) {s : M.State} {r : M.Refusal} (h : M.step s = .refused r) (n : Nat) :
    M.run (n + 1) s = .refused r := by
  simp [Host.Core.run, h]

/-- `runEdges` is the host's run. -/
theorem runEdges_eq_run (n : Nat) (s : State) : runEdges n s = Sys2Proof.core.run n s := by
  induction n generalizing s with
  | zero => rfl
  | succ n ih =>
    cases e : step s with
    | next t => exact (show runEdges (n + 1) s = runEdges n t by simp [runEdges, e]).trans ((ih t).trans (core_run_succ Sys2Proof.core e n).symm)
    | fault r => exact (show runEdges (n + 1) s = .fault r by simp [runEdges, e]).trans (core_run_fault Sys2Proof.core e n).symm
    | refused r => exact (show runEdges (n + 1) s = .refused r by simp [runEdges, e]).trans (core_run_refused Sys2Proof.core e n).symm

theorem runEdges_succ {s t : State} (h : step s = .next t) (n : Nat) : runEdges (n + 1) s = runEdges n t := by
  simp [runEdges, h]

theorem allEdges_succ {s t : State} (h : step s = .next t) (p : State → Bool) (n : Nat) :
    allEdges p (n + 1) s = (p s && allEdges p n t) := by
  simp [allEdges, h]

theorem wire_succ {s t : State} (h : step s = .next t) (n : Nat) :
    wire (n + 1) s = (if byteAccepted s then [(outputs s).outData] else []) ++ wire n t := by
  simp [wire, h]

end Sys2Proof.Machine
end

