-- ==== Sys2Proof/Tests/Slice0.lean ====
section
/-! SUPPORT. Tests of the model against the spec's own vectors (spec/95_test_vectors.md and the examples of the rules), the
WellFormed smoke test, and for each statement with hypotheses a state and operands that meet them. Every test is one call or
one step; the expected values are the spec's. -/

namespace Sys2Proof.Machine

/-! ### WellFormed -/

/-- R161: 0x7F is no listed code. -/
theorem test_wellFormed_unlisted : (Instr.frame 1 0x7F 0 0).wellFormed = true := by decide

/-- R161: `frame` with a listed code is refused (it would be a second spelling of `ON`). -/
theorem test_wellFormed_refuses_listed : (Instr.frame 1 0x20 0 0).wellFormed = false := by decide

/-- R161: the last listed code is refused too. -/
theorem test_wellFormed_refuses_last : (Instr.frame 1 0x31 0 0).wellFormed = false := by decide

/-- R76: the listed codes are eleven, and no two are equal. -/
theorem test_codes_distinct : listedCodes.length = 11 ∧ listedCodes.Nodup := by decide

/-! ### Decode: words written out from R71, nibbles `args argc code addr` -/

/-- P1: `ON @690`; and the same with two zero arguments. -/
theorem test_decode_on : decode 0x22002B2 = .powerOn 690 2 0 ∧ decode 0x2002B2 = .powerOn 690 0 0 := by decide
/-- P4: `OFF @0xC0DB`. -/
theorem test_decode_off : decode 0x21C0DB = .powerOff 0xC0DB 0 0 := by decide
/-- P1: `SET_LEVEL @690, 128`. -/
theorem test_decode_setLevel : decode 0x8012202B2 = .setLevel 690 1 0x80 := by decide
/-- P5: `FADE_TO_LEVEL @690, 255, 5, 200`. -/
theorem test_decode_fadeToLevel : decode 0xC805FF32302B2 = .fadeToLevel 690 3 0xC805FF := by decide
/-- Code 0x24, address 0x02B2, no arguments. -/
theorem test_decode_legacyFadeDown : decode 0x2402B2 = .legacyFadeDown 690 0 0 := by decide
/-- `SET_PSEUDO_ADDRESS @690, 0x12, 0x34`: lanes 0x3412, count 2, code 0x25, address 0x02B2. -/
theorem test_decode_setPseudoAddress : decode 0x341222502B2 = .setPseudoAddress 690 2 0x3412 := by decide
/-- Code 0x26, address 0x02B2, no arguments. -/
theorem test_decode_erase : decode 0x2602B2 = .erasePseudoAddressTable 690 0 0 := by decide
/-- P2: `SET_RGB_LEVELS @690, 0xC0, 0xDB, 0x00`. -/
theorem test_decode_setRgbLevels : decode 0xDBC032C02B2 = .setRgbLevels 690 3 0xDBC0 := by decide
/-- P1: `TOGGLE @690`. -/
theorem test_decode_toggle : decode 0x2D02B2 = .toggle 690 0 0 := by decide
/-- `FADE_MULTIPLE_TO_LEVEL @690, 1, 2, 3`: lanes 0x030201, count 3, code 0x30, address 0x02B2. -/
theorem test_decode_fadeMultiple : decode 0x03020133002B2 = .fadeMultipleToLevel 690 3 0x030201 := by decide
/-- P3: `FADE_RGB_TO_LEVEL @690, 1,0,0, 2,0,200, 3,5,5`. -/
theorem test_decode_fadeRgb :
    decode 0x50503C8000200000193102B2 = .fadeRgbToLevel 690 9 0x50503C80002000001 := by decide
/-- `FRAME @1, code=0x7F`. -/
theorem test_decode_frame : decode 0x7F0001 = .frame 1 0x7F 0 0 := by decide
/-- R71: every field at its highest value. -/
theorem test_decode_all_ones : decode (BitVec.allOnes 148) = .frame 65535 0xFF 15 (BitVec.allOnes 120) := by decide
/-- I15: a number wider than the request is refused by name. -/
theorem test_decodeNumber_wide : decodeNumber (2 ^ 148) = .error .widerThanRequest := by
  simp [decodeNumber]
/-- The table's row of `TOGGLE`, its 24 bits. -/
theorem test_decodeTableWord : decodeTableWord 24 0x2D0000 = some (.toggle 0 0 0) := by decide
/-- P2: the encoder gives the spec's word. -/
theorem test_encode_rgb : encode (.setRgbLevels 690 3 0xDBC0) = 0xDBC032C02B2 := by decide

/-! ### The packer (95_test_vectors.md 2.1) -/

theorem test_split16 : split16 690 = [2, 178] ∧ split16 65535 = [255, 255] ∧ split16 0x0100 = [1, 0] := by decide
theorem test_argList : argList 3 0x0101FF = [0xFF, 1, 1] ∧ argList 0 0xABAB = [] ∧ argList 1 0xAB80 = [0x80] := by decide
theorem test_fadeTriple : fadeTriple .clamp 10 0 0 = [0x0A, 1, 1] ∧ fadeTriple .clamp 0 255 127 = [0, 0xFF, 0x7F] ∧
    fadeTriple .clamp 255 1 128 = [0xFF, 1, 0x7F] ∧ fadeTriple .passThrough 10 0 200 = [0x0A, 0, 0xC8] := by decide
theorem test_formArgs_short : formArgs .clamp 0x23 [9, 0, 0, 0] = [9, 1, 1, 0] ∧ formArgs .clamp 0x23 [7] = [7] ∧
    formArgs .clamp 0x23 [7, 0] = [7, 1] := by decide
theorem test_formArgs_rgb : formArgs .clamp 0x31 [1, 0, 0, 2, 0, 200, 3, 5, 5] = [1, 1, 1, 2, 1, 127, 3, 5, 5] := by decide
theorem test_formArgs_none : formArgs .clamp 0x30 [0, 0, 0] = [0, 0, 0] ∧ formArgs .clamp 0x24 [0, 0, 0xC8] = [0, 0, 0xC8] ∧
    formArgs .clamp 0x22 [0] = [0] := by decide
/-- R103: positions from 9 of code 0x31 are never changed. -/
theorem test_formArgs_beyond : formArgs .clamp 0x31 [0, 9, 9, 0, 9, 9, 0, 9, 9, 0, 0, 200] =
    [0, 9, 9, 0, 9, 9, 0, 9, 9, 0, 0, 200] := by decide
theorem test_payload : payload 690 0x20 [] = [2, 0xB2, 0x20] := by decide

/-! ### The checksum generator (2.2) and escaping (2.3) -/

theorem test_xorFold : xorFold [0, 1, 2, 3, 4] = 4 ∧ xorFold [2, 178, 0x20] = 144 ∧ xorFold [0xC0, 0xDB, 0x21] = 0x3A ∧
    xorFold [0x5A, 0x5A] = 0 := by decide
theorem test_escapeByte : escapeByte 0xC0 = [0xDB, 0xDC] ∧ escapeByte 0xDB = [0xDB, 0xDD] ∧ escapeByte 0xDC = [0xDC] ∧
    escapeByte 0xDD = [0xDD] := by decide
theorem test_escapeWrap : escapeWrap [] = [0xC0, 0xC0] ∧ escapeWrap [0xC0] = [0xC0, 0xDB, 0xDC, 0xC0] ∧
    escapeWrap [0xDB, 0xDC] = [0xC0, 0xDB, 0xDD, 0xDC, 0xC0] := by decide
theorem test_wireLen : wireLen [2, 0xB2, 0x20, 0x90] = 6 ∧ wireLen [2, 0xB2, 0x2C, 0xC0, 0xDB, 0, 0x87] = 11 := by decide
theorem test_unescape : unescape [0xDB, 0xDD, 0xDC] = some [0xDB, 0xDC] ∧ unescape [0xDB, 0x41] = none ∧
    unescape [0xDB] = none := by decide
/-- Two frames back to back (N19: `C0 C0` on the wire is no empty frame). -/
theorem test_scanFrames : scanFrames [0xC0, 1, 2, 0xC0, 0xC0, 3, 0xC0] = [[1, 2], [3]] := by decide

/-! ### Commands (2.4): the frame that the registers hold after the acceptance -/

/-- The frame after `i` is presented in the reset state under a policy. -/
def frameAfter (policy : FadePolicy) (i : Instr) : List Byte :=
  match exec i { State.reset with params := ⟨policy, 8⟩ } with
  | .next t => if t.flen.toNat = (heldFrame t).length then heldFrame t else []
  | .fault _ => []
  | .refused _ => []

theorem test_on : frameAfter .clamp (.powerOn 690 0 0) = [0xC0, 2, 0xB2, 0x20, 0x90, 0xC0] := by decide
theorem test_on_checksum_escaped : frameAfter .clamp (.powerOn 0xE0 0 0) = [0xC0, 0, 0xE0, 0x20, 0xDB, 0xDC, 0xC0] := by decide
theorem test_off : frameAfter .clamp (.powerOff 0xC0DB 0 0) = [0xC0, 0xDB, 0xDC, 0xDB, 0xDD, 0x21, 0x3A, 0xC0] := by decide
theorem test_setLevel : frameAfter .clamp (.setLevel 690 1 128) = [0xC0, 2, 0xB2, 0x22, 0x80, 0x12, 0xC0] := by decide
theorem test_setLevel_escaped :
    frameAfter .clamp (.setLevel 690 1 0xC0) = [0xC0, 2, 0xB2, 0x22, 0xDB, 0xDC, 0x52, 0xC0] := by decide
theorem test_fade_clamp :
    frameAfter .clamp (.fadeToLevel 690 3 0xC805FF) = [0xC0, 2, 0xB2, 0x23, 0xFF, 5, 0x7F, 0x16, 0xC0] := by decide
theorem test_fade_passThrough :
    frameAfter .passThrough (.fadeToLevel 690 3 0xC805FF) = [0xC0, 2, 0xB2, 0x23, 0xFF, 5, 0xC8, 0xA1, 0xC0] := by decide
theorem test_legacyFadeDown : frameAfter .clamp (.legacyFadeDown 690 0 0) = [0xC0, 2, 0xB2, 0x24, 0x94, 0xC0] := by decide
theorem test_setPseudoAddress :
    frameAfter .clamp (.setPseudoAddress 690 2 0x3412) = [0xC0, 2, 0xB2, 0x25, 0x12, 0x34, 0xB3, 0xC0] := by decide
theorem test_erase : frameAfter .clamp (.erasePseudoAddressTable 690 0 0) = [0xC0, 2, 0xB2, 0x26, 0x96, 0xC0] := by decide
theorem test_setRgbLevels : frameAfter .clamp (.setRgbLevels 690 3 0xDBC0) =
    [0xC0, 2, 0xB2, 0x2C, 0xDB, 0xDC, 0xDB, 0xDD, 0, 0x87, 0xC0] := by decide
theorem test_toggle : frameAfter .clamp (.toggle 690 0 0) = [0xC0, 2, 0xB2, 0x2D, 0x9D, 0xC0] := by decide
theorem test_fadeMultiple :
    frameAfter .clamp (.fadeMultipleToLevel 690 3 0x030201) = [0xC0, 2, 0xB2, 0x30, 1, 2, 3, 0x80, 0xC0] := by decide
theorem test_fadeRgb_clamp : frameAfter .clamp (.fadeRgbToLevel 690 9 0x50503C80002000001) =
    [0xC0, 2, 0xB2, 0x31, 1, 1, 1, 2, 1, 0x7F, 3, 5, 5, 0xFF, 0xC0] := by decide
theorem test_fadeRgb_passThrough : frameAfter .passThrough (.fadeRgbToLevel 690 9 0x50503C80002000001) =
    [0xC0, 2, 0xB2, 0x31, 1, 0, 0, 2, 0, 0xC8, 3, 5, 5, 0x49, 0xC0] := by decide
theorem test_frame : frameAfter .clamp (.frame 1 0x7F 0 0) = [0xC0, 0, 1, 0x7F, 0x7E, 0xC0] := by decide

/-! ### Spellings (R81 to R84) -/

theorem test_assemble : assemble "FADE_TO_LEVEL @690, 255, 1, 1".toList = some (.fadeToLevel 690 3 0x0101FF) := by decide
theorem test_assemble_frame : assemble "FRAME @1, code=0x7F".toList = some (.frame 1 0x7F 0 0) := by decide
theorem test_assemble_refuses : assemble "ON @65536".toList = none := by decide
theorem test_wireText : wireText [0xC0, 2, 0xB2, 0x20, 0x90, 0xC0] = "C0 02 B2 20 90 C0".toList := by decide
theorem test_wireListText : wireListText [0xC0, 2, 0x90] = "[0xC0, 0x02, 0x90]".toList := by decide
theorem test_facade : facadeFadeToLevel 690 ⟨255, 1, 1⟩ = .fadeToLevel 690 3 0x0101FF := by decide

/-! ### One step (2.5): states of `ON @690` in flight -/

/-- `ON @690` in flight: payload `02 B2 20`, frame length 6. -/
def onInFlight (st : Fsm) (idx : BitVec 5) (csum : Byte) (cnt : BitVec 6) (ins : List Inputs) : State :=
  { State.reset with
    st := st
    pbuf := latchBuf [0x02, 0xB2, 0x20]
    plen := 3
    idx := idx
    csum := csum
    cnt := cnt
    flen := 6
    inputs := ins }

/-- `OFF @0xC0DB` in BODY at its first byte, 0xC0 (P4, cycle 2). -/
def offInBody (ins : List Inputs) : State :=
  { State.reset with
    st := .body
    pbuf := latchBuf [0xC0, 0xDB, 0x21]
    plen := 3
    cnt := 1
    flen := 8
    inputs := ins }

/-- `OFF @0xC0DB` in ESC2 at its first byte (P4, cycle 3). -/
def offInEsc2 (ins : List Inputs) : State := { offInBody ins with st := .esc2, cnt := 2 }

/-- `ON @0x00E0` in ESC2 at its checksum, 0xC0 (R125). -/
def checksumInEsc2 (ins : List Inputs) : State :=
  { onInFlight .esc2 3 0xC0 5 ins with pbuf := latchBuf [0, 0xE0, 0x20], flen := 7 }

/-- `ON @690` ended by a sink error after one byte (T4). -/
def onFailed (ins : List Inputs) : State := { onInFlight .rsp 0 0 1 ins with rerr := true, rcode := 7 }

/-- The sink accepts, and the requester takes a response. -/
def ready : Inputs := { outReady := true, rspReady := true }

/-- A request presented while everything is ready. -/
def presenting (i : Instr) : Inputs := presentRequest ready (encode i)

/-- Whether the next state meets a condition. -/
def afterStep (s : State) (p : State → Bool) : Bool :=
  match step s with
  | .next t => p t
  | .fault _ => false
  | .refused _ => false

/-- P1, cycle 0. -/
theorem test_step_accepts : afterStep { State.reset with inputs := [presenting (.powerOn 690 0 0)] }
    (fun t => t.st == .sof && t.pbuf.toList.take 4 == [0x02, 0xB2, 0x20, 0] && t.plen == 3 && t.flen == 6) = true := by decide
/-- P1, cycle 1: END accepted. -/
theorem test_step_sof : afterStep (onInFlight .sof 0 0 0 [ready]) (fun t => t.st == .body && t.cnt == 1) = true := by decide
/-- P1, cycle 3: B2 accepted, the checksum so far is B0. -/
theorem test_step_body : afterStep (onInFlight .body 1 0x02 2 [ready])
    (fun t => t.st == .body && t.idx == 2 && t.csum == 0xB0 && t.cnt == 3) = true := by decide
/-- P1, cycle 5: the checksum byte 90 is presented and accepted; it is not folded. -/
theorem test_step_checksum : afterStep (onInFlight .body 3 0x90 4 [ready])
    (fun t => t.st == .eof && t.csum == 0x90 && t.idx == 3) = true ∧
    (outputs (onInFlight .body 3 0x90 4 [ready])).outData = 0x90 := by decide
/-- P1, cycle 6: the end delimiter. -/
theorem test_step_eof : afterStep (onInFlight .eof 3 0x90 5 [ready]) (fun t => t.st == .rsp && t.cnt == 6) = true := by decide
/-- P1, cycle 7: the response (6, 6, 0, 0) is taken. -/
theorem test_step_rsp : afterStep (onInFlight .rsp 3 0x90 6 [ready]) (fun t => t.st == .idle && t.cnt == 6) = true ∧
    completion (outputs (onInFlight .rsp 3 0x90 6 [ready])) = some .ok := by decide
/-- P4, cycle 2: the escape of C0 begins, DB is presented, `idx` stays. -/
theorem test_step_escape : afterStep (offInBody [ready]) (fun t => t.st == .esc2 && t.idx == 0 && t.cnt == 2) = true ∧
    (outputs (offInBody [ready])).outData = 0xDB := by decide
/-- P4, cycle 3: ESC2 presents DC; a short write ends the frame with count 2. -/
theorem test_step_short_write :
    afterStep (offInEsc2 [{ snkAbort := true }])
      (fun t => t.st == .rsp && t.cnt == 2 && !t.rerr && completion (outputsAt false t) == some .short) = true ∧
    (outputs (offInEsc2 [ready])).outData = 0xDC := by decide
/-- T3: a sink error at SOF with the byte accepted. -/
theorem test_step_sink_error :
    afterStep (onInFlight .sof 0 0 0 [{ snkAbort := true, snkErr := true, snkErrCode := 7, outReady := true }])
      (fun t => t.st == .rsp && t.cnt == 1 && t.rerr && t.rcode == 7) = true := by decide
/-- T8: a reset in BODY. -/
theorem test_step_reset : afterStep (onInFlight .body 2 0xB0 2 [{ ready with rst := true }])
    (fun t => t.st == .idle && t.plen == 0 && t.cnt == 0 && t.pbuf == Vector.replicate 18 0) = true := by decide
/-- T11: a request presented in BODY is not accepted. -/
theorem test_step_busy : fetch (onInFlight .body 1 0x02 2 [presenting (.toggle 1 0 0)]) = none := by decide
/-- T12: `snk_err` without `snk_abort` is not read. -/
theorem test_step_err_without_abort :
    afterStep (onInFlight .body 1 0x02 2 [{ ready with snkErr := true, snkErrCode := 0x44 }])
      (fun t => t.st == .body && !t.rerr && t.rcode == 0) = true := by decide
/-- R36: the outputs in SOF. -/
theorem test_outputs_sof : outputs (onInFlight .sof 0 0 0 [ready]) =
    ⟨false, true, 0xC0, true, false, false, 0, 6, false, 0, true⟩ := by decide
/-- The first step after reset runs the word that the table's row of `FADE_RGB_TO_LEVEL` gives. -/
theorem test_withFetchWord : fetch (State.reset.withFetchWord 24 0x310000) = some (.fadeRgbToLevel 0 0 0) ∧
    afterStep (State.reset.withFetchWord 24 0x310000) (fun t => t.st == .sof) = true := by decide

/-! ### Witnesses: what each statement's hypotheses ask for can be met -/

theorem witness_DecodeOfEncode : (Instr.fadeToLevel 690 3 0xC805FF).wellFormed = true := by decide

theorem witness_ArgumentListReadsCountedLanes : ∃ (n : Argc) (x y : Lanes), n = 1 ∧ x ≠ y ∧
    ∀ i < n.toNat, x.extractLsb' (8 * i) 8 = y.extractLsb' (8 * i) 8 := ⟨1, 0x80, 0xAB80, by decide⟩

/-- Each formed position of each code, and one beyond. -/
theorem witness_ArgumentFormation : formArgs .clamp 0x23 [0, 0, 200, 0] = [0, 1, 127, 0] ∧
    formArgs .clamp 0x31 [0, 0, 200, 0, 0, 200, 0, 0, 200, 0] = [0, 1, 127, 0, 1, 127, 0, 1, 127, 0] := by decide

theorem witness_ChecksumProperties : List.Perm [(1 : Byte), 2] [2, 1] ∧
    [(3 : Byte), 4].length = [(9 : Byte), 9].length ∧ xorFold [9, 9] = 0 := by decide

theorem witness_UnescapeInvertsEscapeWrap : (0x41 : Byte) ≠ 0xDC ∧ (0x41 : Byte) ≠ 0xDD := by decide

theorem witness_DelimiterGuarantee : (escapeWrap [0xC0, 0xDB])[1]? = some 0xDB ∧ (escapeWrap [0xC0, 0xDB])[3]? = some 0xDB := by
  decide

theorem witness_FrameLengthBounds : (14 : Argc).toNat % 2 = 0 ∧ (15 : Argc).toNat % 2 = 1 := by decide

theorem witness_ScanningFindsFrames : ∀ p ∈ [[(0xC0 : Byte)], [0xDB, 1]], p ≠ [] := by decide

theorem witness_FramesAreUnambiguous :
    encodeFrame .clamp 690 0x23 [1, 0, 200] = encodeFrame .passThrough 690 0x23 [1, 1, 127] := by decide

/-- For the statements about a command in IDLE: EveryCommandIsAccepted, PowerCommandFrames, LevelCommandFrames,
FadeToLevelFrame, FadeRgbToLevelFrame, RawCommandFrames, FacadeOperationsFrame. -/
theorem witness_idle : State.reset.st = .idle := rfl

theorem witness_UnlistedCodeFrame : State.reset.st = .idle ∧ (Instr.frame 0 0xC0 15 0).wellFormed = true := by decide

theorem witness_RequestTurnedAwayWhileBusy : (onInFlight .body 1 0x02 2 []).st ≠ .idle := by decide

theorem witness_FrameDependsOnRequestAlone :
    ∃ (i j : Instr) (s u t v : State), i ≠ j ∧ s ≠ u ∧ i.addr = j.addr ∧ i.code = j.code ∧ i.argc = j.argc ∧
      (∀ k < i.argc.toNat, lane i.args k = lane j.args k) ∧ s.st = .idle ∧ u.st = .idle ∧
      s.params.fadePolicy = u.params.fadePolicy ∧ exec i s = .next t ∧ exec j u = .next v :=
  ⟨.setLevel 690 1 0x80, .setLevel 690 1 0xAB80, State.reset, onInFlight .idle 3 0x90 6 [], _, _,
    by decide, by decide, rfl, rfl, rfl, by decide, rfl, rfl, rfl, rfl, rfl⟩

theorem witness_ListedBytesBecomeLanes : [(1 : Byte), 2].length ≤ 15 ∧ 15 < (List.replicate 16 (0 : Byte)).length := by decide

theorem witness_StepRunsDecodedInstruction :
    ∃ (i : Instr) (s : State), i.wellFormed = true ∧ requestWord s.now = encode i ∧ s.st = .idle ∧ s.now.rst = false ∧
      s.now.cmdValid = true ∧ ∃ t, exec i s = .next t :=
  ⟨.powerOn 690 0 0, { State.reset with inputs := [presenting (.powerOn 690 0 0)] }, by decide, by decide, rfl, rfl, rfl,
    _, rfl⟩

theorem witness_IdleStep : ∀ v : Bool, let s := { State.reset with inputs := [{ presenting (.toggle 1 0 0) with cmdValid := v }] }
    s.st = .idle ∧ s.now.rst = false ∧ s.now.cmdValid = v := by decide

theorem witness_ResetEdgeSetsRegisters : (onInFlight .body 2 0xB0 2 [{ rst := true }]).now.rst = true := rfl

/-- A transfer state with the sink ready, and one with the sink stalled. -/
theorem witness_StartDelimiterStep : ∀ r : Bool, let s := onInFlight .sof 0 0 0 [{ outReady := r }]
    s.st = .sof ∧ s.now.rst = false ∧ s.now.snkAbort = false ∧ s.now.outReady = r := by decide

/-- The three accepted cases: a reserved byte, a payload byte, and the checksum byte. -/
theorem witness_PayloadByteStep :
    (let s := offInBody [ready]; s.st = .body ∧ s.now.rst = false ∧ s.now.snkAbort = false ∧ s.now.outReady = true ∧
      cur s = 0xC0) ∧
    (let s := onInFlight .body 2 0xB0 3 [ready]; s.st = .body ∧ s.now.snkAbort = false ∧ s.now.outReady = true ∧
      ¬ (cur s = 0xC0 ∨ cur s = 0xDB) ∧ s.idx.toNat < s.plen.toNat) ∧
    (let s := onInFlight .body 3 0x90 4 [ready]; s.st = .body ∧ s.now.snkAbort = false ∧ s.now.outReady = true ∧
      ¬ (cur s = 0xC0 ∨ cur s = 0xDB) ∧ ¬ s.idx.toNat < s.plen.toNat) := by decide

/-- ESC2 at a payload byte, and at an escaped checksum (`ON @0x00E0`). -/
theorem witness_EscapePairStep :
    (let s := offInEsc2 [ready]; s.st = .esc2 ∧ s.now.rst = false ∧ s.now.snkAbort = false ∧
      s.now.outReady = true ∧ s.idx.toNat < s.plen.toNat ∧ BlockInv s) ∧
    (let s := checksumInEsc2 [ready];
      s.st = .esc2 ∧ s.now.snkAbort = false ∧ s.now.outReady = true ∧ ¬ s.idx.toNat < s.plen.toNat ∧ BlockInv s) :=
  ⟨by decide, by decide⟩

theorem witness_EndDelimiterStep : let s := onInFlight .eof 3 0x90 5 [ready]
    s.st = .eof ∧ s.now.rst = false ∧ s.now.snkAbort = false ∧ s.now.outReady = true ∧ BlockInv s := by decide

theorem witness_SinkAbortStep : let s := onInFlight .body 0 0 1 [{ snkAbort := true, snkErr := true, snkErrCode := 0x5A }]
    s.st.transfer = true ∧ s.now.rst = false ∧ s.now.snkAbort = true := by decide

/-- T6. -/
theorem witness_SinkAbortStep_eof :
    let s := onInFlight .eof 3 0x90 5 [{ outReady := true, snkAbort := true, snkErr := true, snkErrCode := 0x33 }]
    s.st.transfer = true ∧ s.now.rst = false ∧ s.now.snkAbort = true ∧ BlockInv s ∧ s.st = .eof ∧
      s.now.outReady = true := by decide

theorem witness_SinkErrorReachesResponse :
    let s := onInFlight .body 0 0 1 [{ snkAbort := true, snkErr := true, snkErrCode := 255 }, {}]
    BlockInv s ∧ s.st.transfer = true ∧ s.now.rst = false ∧ s.now.snkAbort = true ∧ s.now.snkErr = true ∧
      s.now.snkErrCode < 2 ^ s.params.errW ∧ afterStep s (fun t => allEdges waiting 1 t) = true := by decide

/-- T5 (EOF, the byte accepted) and T2 (SOF, no byte accepted). -/
theorem witness_ShortWriteCount :
    (let s := onInFlight .eof 3 0x90 5 [{ snkAbort := true, outReady := true }];
      BlockInv s ∧ s.st.transfer = true ∧ s.now.rst = false ∧ s.now.snkAbort = true ∧ s.now.snkErr = false ∧
        (s.st = .eof ∧ s.now.outReady = true)) ∧
    (let s := onInFlight .sof 0 0 0 [{ snkAbort := true }];
      BlockInv s ∧ s.st.transfer = true ∧ s.now.rst = false ∧ s.now.snkAbort = true ∧ s.now.snkErr = false ∧
        ¬ (s.st = .eof ∧ s.now.outReady = true)) :=
  ⟨by decide, by decide⟩

theorem witness_ResponseStep : ∀ r : Bool, let s := onInFlight .rsp 3 0x90 6 [{ rspReady := r }]
    s.st = .rsp ∧ s.now.rst = false ∧ s.now.rspReady = r := by decide

theorem witness_WaitingChangesNothing : allEdges waiting 2 (onInFlight .body 1 0x02 2 [{}, {}]) = true ∧
    allEdges waiting 2 (onInFlight .rsp 3 0x90 6 [{}, {}]) = true ∧
    allEdges waiting 2 { State.reset with inputs := [{}, {}] } = true := by decide

/-- The stalled case of PayloadByteStep, EscapePairStep and EndDelimiterStep, and the waiting response of
WaitingOutputsAreStable. -/
theorem witness_stalled :
    (∀ st ∈ [Fsm.body, Fsm.esc2, Fsm.eof], let s := onInFlight st 1 0x02 2 [{}]
      s.st = st ∧ s.now.rst = false ∧ s.now.snkAbort = false ∧ s.now.outReady = false) ∧
    (let s := onInFlight .rsp 3 0x90 6 [{}]; BlockInv s ∧ s.st = .rsp ∧ allEdges waiting 1 s = true) :=
  ⟨by decide, by decide⟩

/-- The reset and abort clauses of ErrorRecordWriters, PointerMovesForward, CounterCountsAcceptedBytes, ParametersAreFixed
and EveryStepKeepsInvariant. -/
theorem witness_step_reset_or_abort :
    (∃ s t : State, BlockInv s ∧ s.now.rst = true ∧ step s = .next t) ∧
    (∃ s t : State, BlockInv s ∧ s.st.transfer = true ∧ s.now.rst = false ∧ s.now.snkAbort = true ∧
      byteAccepted s = true ∧ step s = .next t) :=
  ⟨⟨onInFlight .body 1 0x02 2 [{ rst := true }], _, by decide, rfl, rfl⟩,
    ⟨onInFlight .body 1 0x02 2 [{ outReady := true, snkAbort := true }], _, by decide, rfl, rfl, rfl, by decide, rfl⟩⟩

/-- For the statements about one step, in BODY and at an acceptance: NextFsmState, OnlyAcceptanceWritesBuffer,
PointerMovesForward, CounterCountsAcceptedBytes, ErrorRecordWriters, ParametersAreFixed, EveryStepKeepsInvariant. -/
theorem witness_step_of_invariant :
    (∃ s t : State, BlockInv s ∧ s.st = .body ∧ s.now.rst = false ∧ requestAccepted s = false ∧ byteAccepted s = true ∧
      step s = .next t) ∧
    (∃ s t : State, BlockInv s ∧ requestAccepted s = true ∧ step s = .next t) :=
  ⟨⟨onInFlight .body 1 0x02 2 [ready], _, by decide, rfl, rfl, by decide, by decide, rfl⟩,
    ⟨{ State.reset with inputs := [presenting (.toggle 690 0 0)] }, _, by decide, by decide, rfl⟩⟩

/-- Pins that differ in every ignored input of BODY, of RSP and of IDLE without a request. -/
theorem witness_IgnoredInputs :
    (let a := ready; let b := { presenting (.toggle 1 2 3) with snkErr := true, snkErrCode := 9, rspReady := false }
      a ≠ b ∧ a.rst = b.rst ∧ a.outReady = b.outReady ∧ a.snkAbort = b.snkAbort ∧
        (a.snkAbort = true → a.snkErr = b.snkErr) ∧ (onInFlight .body 1 0x02 2 []).st.transfer = true) ∧
    (let a := ready; let b : Inputs := { cmdValid := true, snkAbort := true, rspReady := true }
      a ≠ b ∧ a.rst = b.rst ∧ a.rspReady = b.rspReady ∧ (onInFlight .rsp 3 0x90 6 []).st = .rsp) ∧
    (let a := presenting (.toggle 1 0 0); let b := { a with outReady := false, snkAbort := true, rspReady := false }
      a ≠ b ∧ a.rst = b.rst ∧ a.cmdValid = b.cmdValid ∧ requestWord a = requestWord b) := by decide

theorem witness_WaitingOutputsAreStable :
    ∃ s t : State, BlockInv s ∧ s.st.transfer = true ∧ allEdges waiting 1 s = true ∧ runEdges 1 s = .next t :=
  ⟨onInFlight .body 1 0x02 2 [{}], _, by decide, by decide, by decide, rfl⟩

theorem witness_ResetDropsRequest : ∃ s t : State, s.now.rst = true ∧ step s = .next t :=
  ⟨onInFlight .body 2 0xB0 2 [{ ready with rst := true }], _, rfl, rfl⟩

/-- A response of each outcome. -/
theorem witness_ResponseOutcome :
    (let s := onInFlight .rsp 3 0x90 6 []; BlockInv s ∧ s.st = .rsp ∧ s.cnt = s.flen) ∧
    (let s := onInFlight .rsp 0 0 0 []; BlockInv s ∧ s.st = .rsp ∧ s.cnt.toNat < s.flen.toNat) ∧
    (let s := onFailed []; BlockInv s ∧ s.st = .rsp ∧ s.rerr = true) :=
  ⟨by decide, by decide, by decide⟩

theorem witness_ReachableStatesAfterReset : ∃ s t : State, 1 ≤ s.params.errW ∧ s.now.rst = true ∧ runEdges 2 s = .next t :=
  ⟨onInFlight .body 9 1 60 [{ rst := true }, presenting (.toggle 1 0 0)], _, by decide, rfl, rfl⟩

/-- `ON @690` accepted, and all its bytes. -/
def onRun : State := { State.reset with inputs := presenting (.powerOn 690 0 0) :: List.replicate 7 ready }

theorem witness_FrameCorrectness :
    fetch onRun = some (.powerOn 690 0 0) ∧ afterStep onRun (fun u => allEdges inFlight 7 u &&
      (match runEdges 5 u with | .next v => v.st == .eof && sinkReady v | .fault _ => false | .refused _ => false)) = true := by
  decide

theorem witness_UnstalledFrameTiming :
    fetch onRun = some (.powerOn 690 0 0) ∧ afterStep onRun (fun u => allEdges sinkReady 6 u &&
      (match runEdges 6 u with | .next t => !t.now.rst && t.now.rspReady | .fault _ => false | .refused _ => false)) = true := by
  decide

theorem witness_OneResponsePerRequest : allEdges noReset 8 onRun = true := by decide

end Sys2Proof.Machine
end

section
/-! PROOFS of the family of 10_state.md, about the registers: what an edge can do (R180 to R189), where the transfer
stands in the frame (R139), the invariant of R42 kept by every edge, and the statements that follow from these. -/

namespace Sys2Proof.Machine

/-! ### The frame length (R134) -/

theorem wireLen_eq_countP (q : List Byte) : wireLen q = 2 + q.length + q.countP reserved := by
  have sum : (q.map fun b => (escapeByte b).length).sum = q.length + q.countP reserved := by
    induction q with
    | nil => rfl
    | cons b q ih =>
      rw [List.map_cons, List.sum_cons, ih, escapeByte_length, List.length_cons, List.countP_cons]
      split <;> omega
  rw [wireLen, sum, Nat.add_assoc]

theorem msb_of_reserved {b : Byte} (h : reserved b = true) : b.msb = true := by
  rcases (reserved_iff b).1 h with rfl | rfl <;> rfl

/-- Both reserved values have their top bit set, so the fold's top bit is the parity of their number. -/
theorem msb_xorFold_of_reserved {p : List Byte} (h : ∀ b ∈ p, reserved b = true) :
    (xorFold p).msb = decide (p.length % 2 = 1) := by
  induction p with
  | nil => rfl
  | cons b p ih =>
    have hb : b.msb = true := msb_of_reserved (h b List.mem_cons_self)
    have hp := ih fun c hc => h c (List.mem_cons_of_mem b hc)
    rw [xorFold_cons, BitVec.msb_xor, hb, hp, List.length_cons]
    rcases Nat.mod_two_eq_zero_or_one p.length with e | e <;> simp [Nat.add_mod, e]

/-- R134: with an even number of payload bytes, not every byte of payload and checksum is reserved. -/
theorem countP_reserved_withChecksum_le {p : List Byte} (even : p.length % 2 = 0) :
    (withChecksum p).countP reserved ≤ p.length := by
  by_contra hlt
  have le : (withChecksum p).countP reserved ≤ p.length + 1 := by
    simpa using List.countP_le_length (p := reserved) (l := withChecksum p)
  have all : ∀ b ∈ withChecksum p, reserved b = true :=
    List.countP_eq_length.1 (by rw [withChecksum_length]; omega)
  have top : (xorFold p).msb = true := msb_of_reserved (all _ (by simp [withChecksum]))
  have low : (xorFold p).msb = decide (p.length % 2 = 1) :=
    msb_xorFold_of_reserved fun b hb => all b (by simp [withChecksum, hb])
  simp [low, even] at top

/-- R134: the longest frame has 39 bytes (90_conflicts.md C7). -/
theorem wireLen_withChecksum_le {p : List Byte} (h : p.length ≤ 18) : wireLen (withChecksum p) ≤ 39 := by
  rw [wireLen_eq_countP, withChecksum_length]
  rcases Nat.mod_two_eq_zero_or_one p.length with even | odd
  · have := countP_reserved_withChecksum_le even
    omega
  · have : (withChecksum p).countP reserved ≤ p.length + 1 := by
      simpa using List.countP_le_length (p := reserved) (l := withChecksum p)
    omega

/-! ### What one edge can do (R180 to R189) -/

/-- R184 to R186: the byte presented is the last wire byte of its payload or checksum byte. -/
def completesByte (s : State) : Bool := s.st == .esc2 || (s.st == .body && !reserved (cur s))

/-- R183 to R187: what the acceptance of the byte presented does in a transfer state, where the sink does not abort. -/
inductive ByteAcceptance (s : State) : State → Prop
  /-- R183: the start delimiter. -/
  | startDelimiter (sof : s.st = .sof) : ByteAcceptance s { s with cnt := s.cnt + 1, st := .body }
  /-- R184: the ESC of an escape pair. -/
  | escape (body : s.st = .body) (res : reserved (cur s) = true) :
      ByteAcceptance s { s with cnt := s.cnt + 1, st := .esc2 }
  /-- R186: the last wire byte of a payload byte. -/
  | payloadByte (last : completesByte s = true) (lt : s.idx < s.plen) :
      ByteAcceptance s { s with cnt := s.cnt + 1, csum := s.csum ^^^ cur s, idx := s.idx + 1, st := .body }
  /-- R186: the last wire byte of the checksum. -/
  | checksum (last : completesByte s = true) (nlt : ¬ s.idx < s.plen) :
      ByteAcceptance s { s with cnt := s.cnt + 1, st := .eof }
  /-- R187: the end delimiter. -/
  | endDelimiter (eof : s.st = .eof) : ByteAcceptance s { s with cnt := s.cnt + 1, st := .rsp }

/-- R180: the next state, by what happens at the edge. -/
inductive Edge (s : State) : State → Prop
  /-- R220. -/
  | reset (rst : s.now.rst = true) : Edge s (tick (resetEdge s))
  /-- R181. -/
  | request {i : Instr} (acc : fetch s = some i) :
      Edge s (tick (accept (requestPayload s.params.fadePolicy i.addr i.code i.argc i.args) s))
  /-- R188. -/
  | abort (rst : s.now.rst = false) (tr : s.st.transfer = true) (ab : s.now.snkAbort = true) :
      Edge s (tick (sinkAbort s.now s))
  /-- R183 to R187. -/
  | byte (rst : s.now.rst = false) (tr : s.st.transfer = true) (ab : s.now.snkAbort = false)
      (rdy : s.now.outReady = true) {u : State} (acc : ByteAcceptance s u) : Edge s (tick u)
  /-- R189. -/
  | response (rst : s.now.rst = false) (rsp : s.st = .rsp) (rdy : s.now.rspReady = true) : Edge s (tick (takeResponse s))
  /-- R193, R181: nothing that the block waits for. -/
  | wait (rst : s.now.rst = false) (noReq : requestAccepted s = false)
      (noSink : s.st.transfer = true → s.now.snkAbort = false ∧ s.now.outReady = false)
      (noRsp : s.st = .rsp → s.now.rspReady = false) : Edge s (tick s)

/-- R22: in a transfer state or RSP no request is accepted. -/
theorem requestAccepted_of_not_idle {s : State} (h : s.st ≠ .idle) : requestAccepted s = false := by
  rw [Bool.eq_false_iff, Ne, requestAccepted_iff]
  exact fun acc => h acc.1

theorem not_idle_of_transfer {s : State} (h : s.st.transfer = true) : s.st ≠ .idle := by
  intro e
  simp [e, Fsm.transfer] at h

theorem requestAccepted_of_transfer {s : State} (h : s.st.transfer = true) : requestAccepted s = false :=
  requestAccepted_of_not_idle (not_idle_of_transfer h)

theorem requestAccepted_of_rsp {s : State} (h : s.st = .rsp) : requestAccepted s = false :=
  requestAccepted_of_not_idle (by simp [h])

theorem requestAccepted_of_fetch {s : State} {i : Instr} (h : fetch s = some i) : requestAccepted s = true :=
  (requestAccepted_iff s).2 ((fetch_eq_some_iff s i).1 h).1

/-- R23: when a byte is accepted. -/
theorem byteAccepted_eq (s : State) : byteAccepted s = (!s.now.rst && s.st.transfer && s.now.outReady) := rfl

theorem byteAccepted_of_rsp {s : State} (h : s.st = .rsp) : byteAccepted s = false := by
  simp [byteAccepted_eq, h, Fsm.transfer]

theorem byteAccepted_of_stalled {s : State}
    (h : s.st.transfer = true → s.now.snkAbort = false ∧ s.now.outReady = false) : byteAccepted s = false := by
  rw [byteAccepted_eq, Bool.and_assoc]
  cases tr : s.st.transfer with
  | false => simp
  | true => simp [(h tr).2]

/-- R186: the acceptance of the last wire byte of a byte advances. -/
theorem byteAcceptance_advance {s : State} (last : completesByte s = true) :
    ByteAcceptance s (advance (countByte s)) := by
  rcases advance_cases (countByte s) with ⟨lt, _, e⟩ | ⟨nlt, _, e⟩
  · rw [e]; exact .payloadByte last lt
  · rw [e]; exact .checksum last nlt

theorem byteAcceptance_body {s : State} (body : s.st = .body) : ByteAcceptance s (bodyAccepted s) := by
  unfold bodyAccepted
  split
  · next res => exact .escape body res
  · next res => exact byteAcceptance_advance (by simp [completesByte, body, res])

/-- R182: a transfer state's edge, whose own step `f` is an acceptance of the byte presented. -/
theorem edge_transfer {s : State} {f : State → State} (rst : s.now.rst = false) (tr : s.st.transfer = true)
    (acc : ByteAcceptance s (f s)) : Edge s (tick (transferEdge f s.now s)) := by
  rcases transferEdge_cases f s.now s with ⟨ab, e⟩ | ⟨ab, rdy, e⟩ | ⟨ab, rdy, e⟩
  · rw [e]; exact .abort rst tr ab
  · rw [e]; exact .byte rst tr ab rdy acc
  · rw [e]
    exact .wait rst (requestAccepted_of_transfer tr) (fun _ => ⟨ab, rdy⟩)
      fun rsp => by simp [rsp, Fsm.transfer] at tr

/-- R189: RSP's edge. -/
theorem edge_rsp {s : State} (rst : s.now.rst = false) (rsp : s.st = .rsp) : Edge s (tick (responseEdge s.now s)) := by
  unfold responseEdge
  split
  · next rdy => exact .response rst rsp rdy
  · next nrdy =>
    exact .wait rst (requestAccepted_of_rsp rsp) (by simp [rsp, Fsm.transfer])
      fun _ => by simpa using nrdy

/-- An edge at which no request is accepted. -/
theorem edge_quiet {s : State} (noReq : requestAccepted s = false) : Edge s (tick (quietEdge s.now s)) := by
  cases rst : s.now.rst with
  | true => rw [quietEdge_reset rst]; exact .reset rst
  | false =>
    cases st : s.st with
    | idle => rw [quietEdge_idle rst st]; exact .wait rst noReq (by simp [st, Fsm.transfer]) (by simp [st])
    | sof =>
      rw [quietEdge_sof rst st]
      exact edge_transfer rst (by simp [st, Fsm.transfer]) (.startDelimiter st)
    | body =>
      rw [quietEdge_body rst st]
      exact edge_transfer rst (by simp [st, Fsm.transfer]) (byteAcceptance_body st)
    | esc2 =>
      rw [quietEdge_esc2 rst st]
      exact edge_transfer rst (by simp [st, Fsm.transfer]) (byteAcceptance_advance (by simp [completesByte, st]))
    | eof =>
      rw [quietEdge_eof rst st]
      exact edge_transfer rst (by simp [st, Fsm.transfer]) (.endDelimiter st)
    | rsp => rw [quietEdge_rsp rst st]; exact edge_rsp rst st

/-- The inversion of `step`, by what happens at the edge. -/
theorem edge_of_step {s t : State} (h : step s = .next t) : Edge s t := by
  rcases step_cases h with ⟨i, hi, rfl⟩ | ⟨none, rfl⟩
  · exact .request hi
  · exact edge_quiet (by rwa [Bool.eq_false_iff, Ne, requestAccepted_iff, ← fetch_eq_none_iff])

/-! ### Where the transfer stands in the frame (R139) -/

theorem pbufRead_tick {s : State} {i : Nat} (h : i < 18) : pbufRead (tick s) i = pbufRead s i := by
  rw [pbufRead_of_lt h, pbufRead_of_lt h, tick_pbuf]

theorem cur_of_lt {s : State} (lt : s.idx < s.plen) : cur s = pbufRead s s.idx.toNat := if_pos lt

theorem cur_of_not_lt {s : State} (nlt : ¬ s.idx < s.plen) : cur s = s.csum := if_neg nlt

theorem cur_tick {s : State} (h : s.plen.toNat ≤ 18) : cur (tick s) = cur s := by
  by_cases lt : s.idx < s.plen
  · have : s.idx.toNat < s.plen.toNat := lt
    rw [cur_of_lt lt, cur_of_lt (s := tick s) lt, tick_idx, pbufRead_tick (by omega)]
  · rw [cur_of_not_lt lt, cur_of_not_lt (s := tick s) lt, tick_csum]

/-- The pointer of 5 bits does not wrap below `plen`. -/
theorem toNat_idx_add_one {s : State} (lt : s.idx < s.plen) : (s.idx + 1).toNat = s.idx.toNat + 1 := by
  have := s.plen.isLt
  have : s.idx.toNat < s.plen.toNat := lt
  rw [BitVec.toNat_add]
  exact Nat.mod_eq_of_lt (show s.idx.toNat + 1 < 2 ^ 5 by omega)

/-- R186: the payload bytes emitted once the byte at `idx` is complete. -/
theorem take_idx_add_one {s : State} (hplen : s.plen.toNat ≤ 18) (lt : s.idx < s.plen) :
    s.pbuf.toList.take (s.idx + 1).toNat = emitted s ++ [cur s] := by
  have : s.idx.toNat < s.plen.toNat := lt
  have h : s.idx.toNat < 18 := by omega
  rw [toNat_idx_add_one lt, cur_of_lt lt, pbufRead_of_lt h, emitted, List.take_add_one]
  simp [h]

theorem emitted_of_idx_eq {s : State} (h : s.idx = s.plen) : emitted s = heldPayload s := by
  rw [emitted, heldPayload, h]

theorem idx_eq_plen {s : State} (hidx : s.idx.toNat ≤ s.plen.toNat) (nlt : ¬ s.idx < s.plen) : s.idx = s.plen :=
  BitVec.eq_of_toNat_eq (Nat.le_antisymm hidx (Nat.le_of_not_lt nlt))

/-- R133: the frame held depends on the buffer and its length alone. -/
theorem heldFrame_congr {s u : State} (hpbuf : u.pbuf = s.pbuf) (hplen : u.plen = s.plen) :
    heldFrame u = heldFrame s := by
  rw [heldFrame, heldFrame, heldPayload, heldPayload, hpbuf, hplen]

/-- R30, R186: past the payload, the byte at the pointer is the last one of the payload with checksum. -/
theorem emitted_append_cur {s : State} (hidx : s.idx.toNat ≤ s.plen.toNat) (nlt : ¬ s.idx < s.plen)
    (hfold : s.csum = xorFold (emitted s)) : emitted s ++ [cur s] = withChecksum (heldPayload s) := by
  rw [cur_of_not_lt nlt, hfold, emitted_of_idx_eq (idx_eq_plen hidx nlt), withChecksum]

/-- R36: the byte at the pointer comes next in the payload with checksum. -/
theorem emitted_append_cur_prefix {s : State} (hplen : s.plen.toNat ≤ 18) (hidx : s.idx.toNat ≤ s.plen.toNat)
    (hfold : s.csum = xorFold (emitted s)) : emitted s ++ [cur s] <+: withChecksum (heldPayload s) := by
  by_cases lt : s.idx < s.plen
  · have le : (s.idx + 1).toNat ≤ s.plen.toNat := (toNat_idx_add_one lt).trans_le lt
    rw [← take_idx_add_one hplen lt]
    exact ((s.pbuf.toList.take_prefix_take_left le).trans (List.prefix_append _ _))
  · exact (emitted_append_cur hidx lt hfold) ▸ List.prefix_rfl

theorem escapeAll_prefix {p q : List Byte} (h : p <+: q) : escapeAll p <+: escapeAll q := by
  obtain ⟨r, rfl⟩ := h
  rw [escapeAll_append]
  exact List.prefix_append _ _

theorem escFirst_of_reserved {b : Byte} (h : reserved b = true) : escFirst b = escByte := if_pos h

/-- R42 item 4: a state that completes a byte is one in which the checksum is that of the bytes emitted. -/
theorem presents_of_completesByte {s : State} (last : completesByte s = true) :
    s.st = .body ∨ s.st = .esc2 ∨ s.st = .eof := by
  simp only [completesByte, Bool.or_eq_true, Bool.and_eq_true, beq_iff_eq] at last
  exact last.elim (.inr ∘ .inl) (.inl ∘ And.left)

/-- R137: the last wire byte of a byte completes its escape. -/
theorem sent_append_outData {s : State} (last : completesByte s = true)
    (hesc : s.st = .esc2 → reserved (cur s) = true) :
    sent s ++ [outData s] = endByte :: escapeAll (emitted s ++ [cur s]) := by
  rw [completesByte, Bool.or_eq_true, Bool.and_eq_true, beq_iff_eq, beq_iff_eq] at last
  rcases last with esc2 | ⟨body, res⟩
  · simp [sent, outData, esc2, escapeAll_append, escapeByte_eq, hesc esc2, escFirst_of_reserved]
  · simp only [Bool.not_eq_true'] at res
    simp [sent, outData, body, escapeAll_append, escapeByte_eq, res]

theorem escape_prefix_heldFrame {s : State} {p : List Byte} (h : p <+: withChecksum (heldPayload s)) :
    endByte :: escapeAll p <+: heldFrame s :=
  (List.cons_prefix_cons.2 ⟨rfl, escapeAll_prefix h⟩).trans (List.prefix_append _ _)

/-- R139: in a transfer state of the invariant the bytes sent and the byte presented begin the frame held. -/
theorem sent_append_outData_prefix {s : State} (inv : BlockInv s) (tr : s.st.transfer = true) :
    sent s ++ [outData s] <+: heldFrame s := by
  obtain ⟨-, ⟨hplen, hidx, -, -⟩, ⟨-, hfold, -, hesc⟩, -, -⟩ := inv
  cases st : s.st with
  | idle => simp [st, Fsm.transfer] at tr
  | rsp => simp [st, Fsm.transfer] at tr
  | sof => simp [sent, outData, st, heldFrame, escapeWrap]
  | eof => simp [sent, outData, st, heldFrame, escapeWrap]
  | esc2 =>
    rw [sent_append_outData (by simp [completesByte, st]) hesc]
    exact escape_prefix_heldFrame (emitted_append_cur_prefix hplen hidx (hfold (.inr (.inl st))))
  | body =>
    have next := escape_prefix_heldFrame (emitted_append_cur_prefix hplen hidx (hfold (.inl st)))
    cases res : reserved (cur s) with
    | false => rwa [sent_append_outData (by simp [completesByte, st, res]) hesc]
    | true =>
      refine List.IsPrefix.trans ?_ next
      simp [sent, outData, st, escapeAll_append, escapeByte_eq, res, escFirst_of_reserved]

/-- R31: in a transfer state a byte of the frame is still to be accepted. -/
theorem length_sent_lt {s : State} (inv : BlockInv s) (tr : s.st.transfer = true) :
    (sent s).length < (heldFrame s).length := by
  simpa using (sent_append_outData_prefix inv tr).length_le

/-- R31: in a transfer state the counter has not reached the frame length. -/
theorem cnt_lt_flen {s : State} (inv : BlockInv s) (tr : s.st.transfer = true) : s.cnt.toNat < s.flen.toNat := by
  have lt := length_sent_lt inv tr
  obtain ⟨-, -, -, ⟨-, -, hlen, hsent⟩, -⟩ := inv
  rwa [hlen (not_idle_of_transfer tr), hsent tr]

/-- R211: the counter of 6 bits does not wrap at a byte that is accepted. -/
theorem toNat_cnt_add_one {s : State} (inv : BlockInv s) (tr : s.st.transfer = true) :
    (s.cnt + 1).toNat = s.cnt.toNat + 1 := by
  have lt := cnt_lt_flen inv tr
  have := s.flen.isLt
  rw [BitVec.toNat_add]
  exact Nat.mod_eq_of_lt (show s.cnt.toNat + 1 < 2 ^ 6 by omega)

/-! ### What the acceptance of a byte leaves in each register -/

section
variable {s u : State} (acc : ByteAcceptance s u)
include acc

theorem ByteAcceptance.pbuf_eq : u.pbuf = s.pbuf := by cases acc <;> rfl

theorem ByteAcceptance.plen_eq : u.plen = s.plen := by cases acc <;> rfl

theorem ByteAcceptance.flen_eq : u.flen = s.flen := by cases acc <;> rfl

theorem ByteAcceptance.cnt_eq : u.cnt = s.cnt + 1 := by cases acc <;> rfl

theorem ByteAcceptance.rerr_eq : u.rerr = s.rerr := by cases acc <;> rfl

theorem ByteAcceptance.rcode_eq : u.rcode = s.rcode := by cases acc <;> rfl

theorem ByteAcceptance.params_eq : u.params = s.params := by cases acc <;> rfl

theorem ByteAcceptance.inputs_eq : u.inputs = s.inputs := by cases acc <;> rfl

theorem ByteAcceptance.cycle_eq : u.cycle = s.cycle := by cases acc <;> rfl

theorem ByteAcceptance.heldFrame_eq : heldFrame u = heldFrame s := heldFrame_congr acc.pbuf_eq acc.plen_eq

/-- R186: the pointer goes forward where a payload byte is complete. -/
theorem ByteAcceptance.idx_eq :
    u.idx = if completesByte s = true ∧ s.idx < s.plen then s.idx + 1 else s.idx := by
  cases acc with
  | startDelimiter sof => simp [completesByte, sof]
  | escape body res => simp [completesByte, body, res]
  | payloadByte last lt => simp [last, lt]
  | checksum last nlt => simp [nlt]
  | endDelimiter eof => simp [completesByte, eof]

/-- R186: where the acceptance of a byte leaves the pointer, as a number. -/
theorem ByteAcceptance.toNat_idx :
    u.idx.toNat =
      if (decide (s.idx.toNat < s.plen.toNat) && completesByte s) = true then s.idx.toNat + 1 else s.idx.toNat := by
  by_cases moves : completesByte s = true ∧ s.idx < s.plen
  · obtain ⟨last, lt⟩ := moves
    have ltNat : s.idx.toNat < s.plen.toNat := lt
    rw [acc.idx_eq, if_pos ⟨last, lt⟩, toNat_idx_add_one lt]
    simp [last, ltNat]
  · have stays : ¬ (s.idx.toNat < s.plen.toNat ∧ completesByte s = true) := fun h => moves h.symm
    rw [acc.idx_eq, if_neg moves]
    simp only [Bool.and_eq_true, decide_eq_true_iff, if_neg stays]

/-- R139: the byte accepted is the one presented, and it joins the part of the frame sent. -/
theorem ByteAcceptance.sent_eq (inv : BlockInv s) (tr : u.st.transfer = true) : sent u = sent s ++ [outData s] := by
  obtain ⟨-, ⟨hplen, hidx, -, -⟩, ⟨hsof, hfold, -, hesc⟩, -, -⟩ := inv
  cases acc with
  | startDelimiter sof => simp [sent, outData, sof, emitted, (hsof sof).1]
  | escape body res => simp [sent, outData, body, escFirst_of_reserved res, emitted]
  | payloadByte last lt =>
    rw [sent_append_outData last hesc, ← take_idx_add_one hplen lt]
    rfl
  | checksum last nlt =>
    have fold : s.csum = xorFold (emitted s) := hfold (presents_of_completesByte last)
    rw [sent_append_outData last hesc, emitted_append_cur hidx nlt fold]
    rfl
  | endDelimiter eof => simp [Fsm.transfer] at tr

end

/-! ### The invariant (R42) -/

/-- R42 items 1 and 2 where the buffer and its length are kept. -/
theorem bufferInv_congr {s u : State} (inv : BufferInv s) (hpbuf : u.pbuf = s.pbuf) (hplen : u.plen = s.plen)
    (hidx : u.idx.toNat ≤ s.plen.toNat) (busy : u.st ≠ .idle → s.st ≠ .idle) : BufferInv u := by
  obtain ⟨hmax, -, hmin, hzero⟩ := inv
  rw [BufferInv, hplen]
  refine ⟨hmax, hidx, hmin ∘ busy, fun j hj le => ?_⟩
  have read : pbufRead u j = pbufRead s j := by simp only [pbufRead_of_lt hj, hpbuf]
  rw [read]
  exact hzero j hj le

/-- The passing of the edge touches no register. -/
theorem blockInv_tick {s : State} (inv : BlockInv s) : BlockInv (tick s) := by
  obtain ⟨hparams, hbuf, ⟨hsof, hfold, heof, hesc⟩, hcount, herror⟩ := inv
  have ⟨hplen, hidx, _, _⟩ := hbuf
  exact ⟨hparams, bufferInv_congr hbuf rfl rfl hidx id,
    ⟨hsof, hfold, heof, fun st => (cur_tick hplen).symm ▸ hesc st⟩, hcount, herror⟩

/-- R220: a reset edge meets the invariant whatever the registers were. -/
theorem blockInv_resetEdge {s : State} (h : ParamsInv s) : BlockInv (resetEdge s) := by
  have hbuf : BufferInv (resetEdge s) := by
    refine ⟨by simp, by simp, by simp, fun j hj _ => ?_⟩
    simp [pbufRead_of_lt hj]
  exact ⟨h, hbuf, by simp [PhaseInv], by simp [CountInv, Fsm.transfer], by simp [ErrorInv, Fsm.transfer]⟩

/-- R181: an acceptance meets the invariant whatever the registers were. -/
theorem blockInv_accept {s : State} {p : List Byte} (h : ParamsInv s) (hmin : 3 ≤ p.length) (hmax : p.length ≤ 18) :
    BlockInv (accept p s) := by
  have plen : (accept p s).plen.toNat = p.length := by simp; omega
  have len : wireLen (withChecksum p) ≤ 39 := wireLen_withChecksum_le hmax
  have flen : (accept p s).flen.toNat = wireLen (withChecksum p) := by simp; omega
  have hbuf : BufferInv (accept p s) := by
    rw [BufferInv, plen]
    refine ⟨hmax, by simp, fun _ => hmin, fun j hj le => ?_⟩
    have read : pbufRead (accept p s) j = p.getD j 0 := by
      simp only [pbufRead_of_lt hj, accept_pbuf, latchBuf_getElem p j hj]
    simp [read, le]
  have hcount : CountInv (accept p s) := by
    rw [CountInv, flen, heldFrame_accept hmax, length_escapeWrap]
    exact ⟨by simp, len, fun _ => rfl, fun _ => rfl⟩
  exact ⟨h, hbuf, by simp [PhaseInv], hcount, by simp [ErrorInv]⟩

/-- R188: a sink abort keeps the invariant; the byte that it counts is one of the frame held. -/
theorem blockInv_sinkAbort {s : State} (inp : Inputs) (inv : BlockInv s) (tr : s.st.transfer = true) :
    BlockInv (sinkAbort inp s) := by
  have lt := cnt_lt_flen inv tr
  have succ := toNat_cnt_add_one inv tr
  have busy := not_idle_of_transfer tr
  obtain ⟨hparams, hbuf, -, ⟨-, hflen, hlen, -⟩, -⟩ := inv
  have ⟨_, hidx, _, _⟩ := hbuf
  have hcount : CountInv (sinkAbort inp s) := by
    rw [CountInv, heldFrame_congr (sinkAbort_pbuf inp s) (sinkAbort_plen inp s), sinkAbort_flen, sinkAbort_cnt,
      sinkAbort_st]
    refine ⟨?_, hflen, fun _ => hlen busy, by simp [Fsm.transfer]⟩
    split <;> omega
  have herror : ErrorInv (sinkAbort inp s) := by
    rw [ErrorInv, sinkAbort_rerr, sinkAbort_rcode, sinkAbort_params, sinkAbort_st]
    refine ⟨fun e => by simp [e], ?_, by simp [Fsm.transfer]⟩
    split
    · exact Nat.mod_lt _ (Nat.two_pow_pos _)
    · exact Nat.two_pow_pos _
  exact ⟨by simpa [ParamsInv] using hparams,
    bufferInv_congr hbuf (by simp) (by simp) (by simpa using hidx) fun _ => busy,
    by simp [PhaseInv], hcount, herror⟩

/-- R189: the taking of a response keeps the invariant. -/
theorem blockInv_takeResponse {s : State} (inv : BlockInv s) : BlockInv (takeResponse s) := by
  obtain ⟨hparams, hbuf, -, ⟨hcnt, hflen, -, -⟩, ⟨hzero, hcode, -⟩⟩ := inv
  have ⟨_, hidx, _, _⟩ := hbuf
  exact ⟨hparams, bufferInv_congr hbuf rfl rfl hidx (by simp), by simp [PhaseInv],
    ⟨hcnt, hflen, by simp, by simp [Fsm.transfer]⟩, ⟨hzero, hcode, by simp [Fsm.transfer]⟩⟩

/-- R186: the acceptance of a byte keeps the pointer and the checksum where the FSM state says they are. -/
theorem phaseInv_of_byteAcceptance {s u : State} (inv : BlockInv s) (acc : ByteAcceptance s u) : PhaseInv u := by
  obtain ⟨-, ⟨hplen, hidx, -, -⟩, ⟨hsof, hfold, -, -⟩, -, -⟩ := inv
  cases acc with
  | startDelimiter sof =>
    obtain ⟨idx, csum⟩ := hsof sof
    simp [PhaseInv, emitted, idx, csum]
  | escape body res => exact ⟨by simp, fun _ => hfold (.inl body), by simp, fun _ => res⟩
  | payloadByte last lt =>
    refine ⟨by simp, fun _ => ?_, by simp, by simp⟩
    have fold := hfold (presents_of_completesByte last)
    rw [emitted, take_idx_add_one hplen lt, xorFold_snoc, ← fold]
  | checksum last nlt =>
    exact ⟨by simp, fun _ => hfold (presents_of_completesByte last), fun _ => idx_eq_plen hidx nlt, by simp⟩
  | endDelimiter eof => simp [PhaseInv]

/-- R183 to R187: the acceptance of a byte keeps the invariant. -/
theorem blockInv_of_byteAcceptance {s u : State} (inv : BlockInv s) (tr : s.st.transfer = true)
    (acc : ByteAcceptance s u) : BlockInv u := by
  have lt := cnt_lt_flen inv tr
  have succ := toNat_cnt_add_one inv tr
  have phase := phaseInv_of_byteAcceptance inv acc
  have sent := acc.sent_eq inv
  have busy := not_idle_of_transfer tr
  obtain ⟨hparams, hbuf, -, ⟨-, hflen, hlen, hsent⟩, ⟨hzero, hcode, hclear⟩⟩ := inv
  have ⟨_, hidx, _, _⟩ := hbuf
  have hidx' : u.idx.toNat ≤ s.plen.toNat := by
    rw [acc.toNat_idx]
    split
    · next moves =>
      rw [Bool.and_eq_true, decide_eq_true_iff] at moves
      exact moves.1
    · exact hidx
  have hcount : CountInv u := by
    rw [CountInv, acc.cnt_eq, acc.flen_eq, acc.heldFrame_eq, succ]
    refine ⟨lt, hflen, fun _ => hlen busy, fun tr' => ?_⟩
    rw [sent tr', hsent tr]
    simp
  have herror : ErrorInv u := by
    rw [ErrorInv, acc.rerr_eq, acc.rcode_eq, acc.params_eq]
    exact ⟨hzero, hcode, fun _ => hclear tr⟩
  exact ⟨by rw [ParamsInv, acc.params_eq]; exact hparams,
    bufferInv_congr hbuf acc.pbuf_eq acc.plen_eq hidx' fun _ => busy, phase, hcount, herror⟩

/-- R42: every edge keeps the invariant. -/
theorem blockInv_of_edge {s t : State} (inv : BlockInv s) (edge : Edge s t) : BlockInv t := by
  have hparams : ParamsInv s := inv.1
  cases edge with
  | reset rst => exact blockInv_tick (blockInv_resetEdge hparams)
  | @request i acc =>
    have := i.argc.isLt
    exact blockInv_tick (blockInv_accept hparams (by simp) (by simp; omega))
  | abort rst tr ab => exact blockInv_tick (blockInv_sinkAbort s.now inv tr)
  | byte rst tr ab rdy acc => exact blockInv_tick (blockInv_of_byteAcceptance inv tr acc)
  | response rst rsp rdy => exact blockInv_tick (blockInv_takeResponse inv)
  | wait rst noReq noSink noRsp => exact blockInv_tick inv

/-- Settles O52: by what happens at the edge, each case a lemma about its operation. -/
theorem everyStepKeepsInvariant : Obligations.EveryStepKeepsInvariant :=
  fun _ _ inv h => blockInv_of_edge inv (edge_of_step h)

/-! ### The writers of each register -/

/-- Settles O40: of the edges without a reset only a request's writes them, and that one is excluded. -/
theorem onlyAcceptanceWritesBuffer : Obligations.OnlyAcceptanceWritesBuffer := by
  intro s t hrst h noReq
  cases edge_of_step h with
  | reset rst => simp [hrst] at rst
  | request acc => simp [requestAccepted_of_fetch acc] at noReq
  | abort rst tr ab => simp
  | byte rst tr ab rdy acc => simp [acc.pbuf_eq, acc.plen_eq, acc.flen_eq]
  | response rst rsp rdy => simp
  | wait rst noReq noSink noRsp => simp

/-- Settles O41: the bound is the next state's invariant, and of the edges that neither reset nor accept a request only
the acceptance of a byte moves the pointer. -/
theorem pointerMovesForward : Obligations.PointerMovesForward := by
  intro s t inv h
  obtain ⟨-, ⟨-, hidx, -⟩, -⟩ := everyStepKeepsInvariant s t inv h
  refine ⟨hidx, ?_⟩
  cases edge_of_step h with
  | reset rst => simp [rst]
  | request acc => simp [requestAccepted_of_fetch acc]
  | abort rst tr ab => simp [rst, requestAccepted_of_transfer tr, ab]
  | byte rst tr ab rdy acc =>
    simp [rst, requestAccepted_of_transfer tr, byteAccepted_eq, tr, ab, rdy, acc.toNat_idx, completesByte]
  | response rst rsp rdy => simp [rst, requestAccepted_of_rsp rsp, byteAccepted_of_rsp rsp]
  | wait rst noReq noSink noRsp => simp [rst, noReq, byteAccepted_of_stalled noSink]

/-- Settles O42: the bound is the next state's invariant, and where a byte is accepted the counter is below the frame
length, so that it does not wrap. -/
theorem counterCountsAcceptedBytes : Obligations.CounterCountsAcceptedBytes := by
  intro s t inv h
  obtain ⟨-, -, -, ⟨hcnt, hflen, -⟩, -⟩ := everyStepKeepsInvariant s t inv h
  refine ⟨hcnt.trans hflen, ?_⟩
  cases edge_of_step h with
  | reset rst => simp [rst]
  | request acc => simp [requestAccepted_of_fetch acc]
  | abort rst tr ab =>
    have counts : (sinkAbort s.now s).cnt.toNat = s.cnt.toNat + if s.now.outReady then 1 else 0 := by
      rw [sinkAbort_cnt, apply_ite BitVec.toNat, toNat_cnt_add_one inv tr]
      split <;> rfl
    rw [tick_cnt, counts]
    simp [rst, requestAccepted_of_transfer tr, byteAccepted_eq, tr]
  | byte rst tr ab rdy acc =>
    rw [tick_cnt, acc.cnt_eq, toNat_cnt_add_one inv tr]
    simp [rst, requestAccepted_of_transfer tr, byteAccepted_eq, tr, rdy]
  | response rst rsp rdy => simp [rst, requestAccepted_of_rsp rsp, byteAccepted_of_rsp rsp]
  | wait rst noReq noSink noRsp => simp [rst, noReq, byteAccepted_of_stalled noSink]

/-- Settles O43: a sink abort is the one edge but reset and acceptance that writes the record. -/
theorem errorRecordWriters : Obligations.ErrorRecordWriters := by
  intro s t h
  cases edge_of_step h with
  | reset rst => simp [rst]
  | request acc => simp [requestAccepted_of_fetch acc]
  | abort rst tr ab => simp [rst, requestAccepted_of_transfer tr, tr, ab, errToken]
  | byte rst tr ab rdy acc => simp [rst, requestAccepted_of_transfer tr, ab, acc.rerr_eq, acc.rcode_eq]
  | response rst rsp rdy => simp [rst, requestAccepted_of_rsp rsp, rsp, Fsm.transfer]
  | wait rst noReq noSink noRsp =>
    have noAbort : ¬ (s.st.transfer = true ∧ s.now.snkAbort = true) := fun ⟨tr, ab⟩ => by simp [(noSink tr).1] at ab
    simp [rst, noReq, noAbort]

/-- Settles O44: every operation keeps the parameters and the inputs, and `tick` passes one cycle. -/
theorem parametersAreFixed : Obligations.ParametersAreFixed := by
  intro s t h
  cases edge_of_step h with
  | reset rst => simp
  | request acc => simp
  | abort rst tr ab => simp
  | byte rst tr ab rdy acc => simp [acc.params_eq, acc.inputs_eq, acc.cycle_eq]
  | response rst rsp rdy => simp
  | wait rst noReq noSink noRsp => simp

/-! ### Runs from a reset edge -/

/-- R42: the invariant holds along every run. -/
theorem blockInv_runEdges {n : Nat} {s t : State} (inv : BlockInv s) (run : runEdges n s = .next t) : BlockInv t := by
  induction n generalizing s with
  | zero =>
    injection run with e
    exact e ▸ inv
  | succ n ih =>
    cases h : step s with
    | next u =>
      rw [runEdges_succ h] at run
      exact ih (everyStepKeepsInvariant s u inv h) run
    | fault r => simp [runEdges, h] at run
    | refused r => simp [runEdges, h] at run

/-- R42: the facts as the spec words them follow from the invariant. -/
theorem reachableFacts_of_blockInv {s : State} (inv : BlockInv s) : ReachableFacts s := by
  obtain ⟨-, ⟨hplen, hidx, hmin, -⟩, ⟨hsof, hfold, heof, hesc⟩, ⟨hcnt, hflen, -, -⟩, ⟨hcode, -, -⟩⟩ := inv
  refine ⟨fun busy => ⟨hmin busy, hplen⟩, hidx, hsof, hfold, fun eof => ⟨heof eof, ?_⟩, fun esc2 => ?_, ⟨hcnt, hflen⟩,
    hcode⟩
  · rw [hfold (.inr (.inr eof)), emitted_of_idx_eq (heof eof)]
  · exact (reserved_iff _).1 (hesc esc2)

/-- R220: the step of a reset edge. -/
theorem step_of_rst {s : State} (rst : s.now.rst = true) : step s = .next (tick (resetEdge s)) := by
  have none : fetch s = none := (fetch_eq_none_iff s).2 fun ⟨_, low, _⟩ => by simp [low] at rst
  rw [step, none, quietEdge_reset rst]

/-- Settles O53: a reset edge meets the invariant whatever the registers were, and the run after it keeps it. -/
theorem reachableStatesAfterReset : Obligations.ReachableStatesAfterReset := by
  intro n s t hparams rst run
  rw [runEdges_succ (step_of_rst rst)] at run
  exact reachableFacts_of_blockInv (blockInv_runEdges (blockInv_tick (blockInv_resetEdge hparams)) run)

/-! ### The request port (R22, R71) -/

/-- R161: `frame` is what a code outside the table decodes to. -/
theorem instrOf_unlisted {c : Byte} (h : c ∉ listedCodes) (a : Addr) (n : Argc) (x : Lanes) :
    instrOf a c n x = .frame a c n x := by
  simp only [listedCodes, List.mem_cons, List.not_mem_nil, or_false, not_or] at h
  simp only [instrOf, codeOn, codeOff, codeSetLevel, codeFadeToLevel, codeLegacyFadeDown, codeSetPseudoAddress,
    codeErasePseudoAddressTable, codeSetRgbLevels, codeToggle, codeFadeMultipleToLevel, codeFadeRgbToLevel, h,
    if_false]

/-- R76: the fields of a well-formed instruction denote it. -/
theorem instrOf_fields {i : Instr} (h : i.wellFormed = true) : instrOf i.addr i.code i.argc i.args = i := by
  cases i with
  | frame a c n x =>
    have unlisted : c ∉ listedCodes := by simpa [Instr.wellFormed] using h
    exact instrOf_unlisted unlisted a n x
  | _ => rfl

/-- R71: decoding the word of a well-formed instruction gives it back. -/
theorem decode_encode {i : Instr} (h : i.wellFormed = true) : decode (encode i) = i := by
  rw [decode, encode, reqAddr_mkReq, reqCode_mkReq, reqArgc_mkReq, reqArgs_mkReq, instrOf_fields h]

/-- Settles O27: the edge accepts the request, and the port's word decodes to the instruction. -/
theorem stepRunsDecodedInstruction : Obligations.StepRunsDecodedInstruction := by
  intro i s wf word idle rst valid
  have fetched : fetch s = some i := (fetch_eq_some_iff s i).2 ⟨⟨idle, rst, valid⟩, word ▸ decode_encode wf⟩
  have run : step s = tickOutcome (exec i s) := by rw [step, fetched]
  refine ⟨run, fun t next => ?_⟩
  have same : t.inputs = s.inputs ∧ t.cycle = s.cycle := by
    rw [exec_eq_request, request, if_pos idle] at next
    injection next with e
    simp [← e]
  rw [run, next, tickOutcome, tick, same.1, same.2]

/-! ### The outputs (R36) -/

theorem escSecond_eq (b : Byte) : escSecond b = if b = 0xC0 then 0xDC else 0xDD := rfl

theorem escFirst_eq (b : Byte) : escFirst b = if b = 0xC0 ∨ b = 0xDB then 0xDB else b := by
  simp only [escFirst, reserved_iff]
  rfl

/-- Settles O47: by the FSM state, whose row of the table the outputs are. -/
theorem outputTable : Obligations.OutputTable := by
  intro rst s
  cases st : s.st with
  | idle => simp [outputsAt, cmdReady, outData, Fsm.transfer, st]
  | sof => simp [outputsAt, cmdReady, outData, Fsm.transfer, st, endByte]
  | body => simp [outputsAt, cmdReady, outData, Fsm.transfer, st, escFirst_eq]
  | esc2 => simp [outputsAt, cmdReady, outData, Fsm.transfer, st, escSecond_eq]
  | eof => simp [outputsAt, cmdReady, outData, Fsm.transfer, st, endByte]
  | rsp => simp [outputsAt, cmdReady, outData, Fsm.transfer, st]

end Sys2Proof.Machine
end

section
/-! PROOFS of the family of 20_memory.md, about what a frame holds: a receiver's reading of a frame gives the address, the
code and the formed arguments back (R62, R133, R136), and a frame comes of its request alone (R61, R62). -/

namespace Sys2Proof.Machine

/-! ### Reading the wire back (R136) -/

theorem unescape_cons_of_ne {b : Byte} (h : b ≠ escByte) (r : List Byte) :
    unescape (b :: r) = (unescape r).map (b :: ·) := by
  cases r with
  | nil => simp [unescape, h]
  | cons c r => rw [unescape, if_neg h]

/-- R136: un-escaping undoes R130 on the first byte of a payload. -/
theorem unescape_escapeByte_append (b : Byte) (r : List Byte) :
    unescape (escapeByte b ++ r) = (unescape r).map (b :: ·) := by
  rcases escapeByte_cases b with ⟨rfl, e⟩ | ⟨rfl, e⟩ | ⟨-, hesc, e⟩
  · rw [e]; rfl
  · rw [e]; rfl
  · rw [e]; exact unescape_cons_of_ne hesc r

/-- R136: un-escaping is defined on every escaped payload and gives it back. -/
theorem unescape_escapeAll (p : List Byte) : unescape (escapeAll p) = some p := by
  induction p with
  | nil => rfl
  | cons b p ih => rw [escapeAll_cons, unescape_escapeByte_append, ih, Option.map_some]

@[simp] theorem betweenDelimiters_escapeWrap (p : List Byte) : betweenDelimiters (escapeWrap p) = escapeAll p := by
  simp [betweenDelimiters, escapeWrap]

/-- R133: no two byte lists have one frame, since the receiver reads each back. -/
theorem escapeWrap_injective : Function.Injective escapeWrap := by
  intro p q h
  have read : unescape (betweenDelimiters (escapeWrap p)) = unescape (betweenDelimiters (escapeWrap q)) := by rw [h]
  simpa [unescape_escapeAll] using read

/-! ### The parts of a payload (R100, R104, R122) -/

@[simp] theorem dropLast_withChecksum (p : List Byte) : (withChecksum p).dropLast = p := List.dropLast_concat

theorem withChecksum_injective : Function.Injective withChecksum :=
  Function.LeftInverse.injective dropLast_withChecksum

/-- R100: the two bytes on the wire reassemble to the address. -/
theorem addressBytes_append (a : Addr) : a.extractLsb' 8 8 ++ a.extractLsb' 0 8 = a :=
  (BitVec.extractLsb'_append_extractLsb'_eq_extractLsb' (start₁ := 0) (len₁ := 8) (w := 16) rfl).trans
    BitVec.extractLsb'_eq_self

theorem split16_injective : Function.Injective split16 := by
  intro a b h
  simp only [split16, List.cons.injEq, and_true] at h
  obtain ⟨high, low⟩ := h
  rw [← addressBytes_append a, high, low, addressBytes_append]

/-- R104: the fields of a payload have fixed places. -/
theorem payload_inj {a b : Addr} {c d : Byte} {r q : List Byte} :
    payload a c r = payload b d q ↔ a = b ∧ c = d ∧ r = q := by
  refine ⟨fun h => ?_, fun ⟨ha, hc, hr⟩ => by rw [ha, hc, hr]⟩
  simp only [payload, List.append_assoc] at h
  obtain ⟨address, rest⟩ := List.append_inj h rfl
  exact ⟨split16_injective address, List.cons.inj rest⟩

/-- Settles O15: a frame is read back to its payload with checksum, and that to its fields. -/
theorem framesAreUnambiguous : Obligations.FramesAreUnambiguous :=
  fun _ _ _ _ _ _ _ _ h => payload_inj.1 (withChecksum_injective (escapeWrap_injective h))

/-! ### What an acceptance depends on (R61, R101, R181) -/

/-- R181: in IDLE every command is accepted. -/
theorem exec_of_idle {s : State} (idle : s.st = .idle) (i : Instr) :
    exec i s = .next (accept (requestPayload s.params.fadePolicy i.addr i.code i.argc i.args) s) := by
  rw [exec_eq_request, request, if_pos idle]

/-- R101: lanes at and above the count are not read. -/
theorem argList_congr {n : Argc} {x y : Lanes} (h : ∀ k < n.toNat, lane x k = lane y k) : argList n x = argList n y :=
  List.map_congr_left fun k hk => h k (List.mem_range.1 hk)

/-- R105, R181: the frame of an acceptance is the payload's, whatever the registers were before. -/
theorem accept_frame_eq (p : List Byte) (s u : State) :
    heldFrame (accept p s) = heldFrame (accept p u) ∧ (accept p s).pbuf = (accept p u).pbuf ∧
      (accept p s).plen = (accept p u).plen ∧ (accept p s).flen = (accept p u).flen :=
  ⟨heldFrame_congr rfl rfl, rfl, rfl, rfl⟩

/-- Settles O24: the two requests have one payload, and both acceptances load it. -/
theorem frameDependsOnRequestAlone : Obligations.FrameDependsOnRequestAlone := by
  intro i j s u t v addr code argc lanes sIdle uIdle policy execI execJ
  have args : argList i.argc i.args = argList j.argc j.args := argc ▸ argList_congr lanes
  have same : requestPayload s.params.fadePolicy i.addr i.code i.argc i.args =
      requestPayload u.params.fadePolicy j.addr j.code j.argc j.args := by
    rw [requestPayload, requestPayload, policy, addr, code, args]
  rw [exec_of_idle sIdle, same] at execI
  rw [exec_of_idle uIdle] at execJ
  injection execI with ht
  injection execJ with hv
  rw [← ht, ← hv]
  exact accept_frame_eq _ s u

end Sys2Proof.Machine
end

section
/-! PROOFS of the family of 30_encoding.md: the request word and its instruction (R71, R76), the wire as a receiver
reads it (R75), and requests written as listed argument bytes, the Facade operations among them (R81, R82, R84). -/

namespace Sys2Proof.Machine

/-! ### The request word (R71, R76) -/

/-- Settles O2: the fields of an encoded word are the instruction's, and they denote it. -/
theorem decodeOfEncode : Obligations.DecodeOfEncode := fun _ => decode_encode

/-- Settles O1: the eight words are closed, and the model evaluates each. -/
theorem decodeReadsSpecWords : Obligations.DecodeReadsSpecWords := by
  unfold Obligations.DecodeReadsSpecWords
  decide

/-- R71: the four fields cover the word, with no gap between them. -/
theorem mkReq_fields (w : Req) : mkReq (reqAddr w) (reqCode w) (reqArgc w) (reqArgs w) = w := by
  simp only [mkReq, reqAddr, reqCode, reqArgc, reqArgs]
  rw [BitVec.extractLsb'_append_extractLsb'_eq_extractLsb', BitVec.extractLsb'_append_extractLsb'_eq_extractLsb',
    BitVec.extractLsb'_append_extractLsb'_eq_extractLsb']
  · exact BitVec.extractLsb'_eq_self
  all_goals rfl

/-- R76: a code, listed or not, denotes an instruction that carries it and the other fields. -/
theorem instrOf_spec (a : Addr) (c : Byte) (n : Argc) (x : Lanes) :
    (instrOf a c n x).addr = a ∧ (instrOf a c n x).code = c ∧ (instrOf a c n x).argc = n ∧
      (instrOf a c n x).args = x ∧ (instrOf a c n x).wellFormed = true := by
  by_cases listed : c ∈ listedCodes
  · simp only [listedCodes, List.mem_cons, List.not_mem_nil, or_false] at listed
    rcases listed with rfl | rfl | rfl | rfl | rfl | rfl | rfl | rfl | rfl | rfl | rfl <;> exact ⟨rfl, rfl, rfl, rfl, rfl⟩
  · rw [instrOf_unlisted listed]
    exact ⟨rfl, rfl, rfl, rfl, by simpa [Instr.wellFormed] using listed⟩

/-- R53, R71: argument lane `i` of the word. -/
theorem lane_reqArgs (w : Req) {i : Nat} (h : i < 15) : lane (reqArgs w) i = w.extractLsb' (28 + 8 * i) 8 := by
  apply BitVec.eq_of_getLsbD_eq
  intro j hj
  have inside : 8 * i + j < 120 := by omega
  simp [lane, reqArgs, hj, inside, Nat.add_assoc]

/-- I15: the number of a request word fits the request word. -/
theorem decodeNumber_toNat (w : Req) : decodeNumber w.toNat = .ok (decode w) := by
  rw [decodeNumber, if_pos w.isLt, BitVec.ofNat_toNat, BitVec.setWidth_eq]

/-- Settles O3: the word's fields denote a well-formed instruction that carries them, and make up the word again. -/
theorem everyWordIsARequest : Obligations.EveryWordIsARequest := by
  intro w
  obtain ⟨addr, code, argc, args, wf⟩ := instrOf_spec (reqAddr w) (reqCode w) (reqArgc w) (reqArgs w)
  have sameWord : encode (decode w) = w := by rw [encode, decode, addr, code, argc, args, mkReq_fields]
  have lanes : ∀ i < 15, lane (decode w).args i = w.extractLsb' (28 + 8 * i) 8 := fun i h => by
    rw [decode, args, lane_reqArgs w h]
  exact ⟨wf, sameWord, addr, code, argc, lanes, decodeNumber_toNat w⟩

/-! ### The wire at a receiver (R75, R124) -/

/-- R124: a payload with its checksum folds to 0. -/
theorem xorFold_withChecksum (p : List Byte) : xorFold (withChecksum p) = 0 := by
  rw [withChecksum, xorFold_snoc]
  exact BitVec.xor_self

/-- Settles O13: the receiver reads the payload with checksum, and its parts have fixed places. -/
theorem receiverReadsFrame : Obligations.ReceiverReadsFrame := by
  intro policy a c r
  refine ⟨withChecksum (payload a c (formArgs policy c r)), ?_, ?_, dropLast_withChecksum _, ?_, xorFold_withChecksum _⟩
  · rw [encodeFrame, betweenDelimiters_escapeWrap, unescape_escapeAll]
  · simp [receivedArgCount]
  · rw [dropLast_withChecksum, withChecksum, List.getLast?_concat]

/-- R135: escaping leaves no END. -/
theorem endByte_notMem_escapeAll (p : List Byte) : endByte ∉ escapeAll p := by
  rw [escapeAll, List.mem_flatMap]
  rintro ⟨b, -, mem⟩
  rcases escapeByte_cases b with ⟨-, e⟩ | ⟨-, e⟩ | ⟨notEnd, -, e⟩
  · exact absurd (e ▸ mem) (by decide)
  · exact absurd (e ▸ mem) (by decide)
  · exact notEnd (List.mem_singleton.1 (e ▸ mem)).symm

theorem escapeAll_ne_nil {p : List Byte} (h : p ≠ []) : escapeAll p ≠ [] := by
  cases p with
  | nil => exact absurd rfl h
  | cons b p =>
    intro e
    have len := congrArg List.length e
    have pos := escapeByte_length_pos b
    simp only [escapeAll_cons, List.length_append, List.length_nil] at len
    omega

theorem splitAtEnd_endByte_cons (r : List Byte) : splitAtEnd (endByte :: r) = [] :: splitAtEnd r := if_pos rfl

/-- R75: bytes without END, up to the next END, are one piece. -/
theorem splitAtEnd_append_endByte {l : List Byte} (h : endByte ∉ l) (r : List Byte) :
    splitAtEnd (l ++ endByte :: r) = l :: splitAtEnd r := by
  induction l with
  | nil => exact splitAtEnd_endByte_cons r
  | cons b l ih =>
    obtain ⟨notEnd, rest⟩ := not_or.1 (mt List.mem_cons.2 h)
    rw [List.cons_append, splitAtEnd, if_neg (Ne.symm notEnd), ih rest]

/-- R75: the scanner takes one frame off the front of a stream. -/
theorem scanFrames_escapeWrap_append {p : List Byte} (h : p ≠ []) (r : List Byte) :
    scanFrames (escapeWrap p ++ r) = escapeAll p :: scanFrames r := by
  have stream : escapeWrap p ++ r = endByte :: (escapeAll p ++ endByte :: r) := by simp [escapeWrap]
  rw [scanFrames, stream, splitAtEnd_endByte_cons, splitAtEnd_append_endByte (endByte_notMem_escapeAll p), scanFrames]
  simp [escapeAll_ne_nil h]

/-- Settles O14, by induction on the payloads: the scanner takes the frames off one by one. -/
theorem scanningFindsFrames : Obligations.ScanningFindsFrames := by
  intro ps nonempty
  induction ps with
  | nil => rfl
  | cons p ps ih =>
    obtain ⟨first, rest⟩ := List.forall_mem_cons.1 nonempty
    rw [List.flatMap_cons, scanFrames_escapeWrap_append first, ih rest, List.map_cons]

/-! ### Listed argument bytes (R53, R81, R82) -/

theorem packNat_lt (bs : List Byte) : packNat bs < 256 ^ bs.length := by
  induction bs with
  | nil => exact Nat.one_pos
  | cons b bs ih =>
    have low : b.toNat < 256 := b.isLt
    rw [packNat, List.length_cons, Nat.pow_succ]
    omega

/-- Byte `i` of the packed number is the `i`-th byte of the list. -/
theorem packNat_byte {bs : List Byte} {i : Nat} (h : i < bs.length) : packNat bs / 256 ^ i % 256 = bs[i].toNat := by
  induction bs generalizing i with
  | nil => exact absurd h (Nat.not_lt_zero i)
  | cons b bs ih =>
    have low : b.toNat < 256 := b.isLt
    rw [packNat]
    cases i with
    | zero =>
      simp only [Nat.pow_zero, Nat.div_one, List.getElem_cons_zero]
      omega
    | succ i =>
      have shift : (b.toNat + 256 * packNat bs) / 256 = packNat bs := by omega
      rw [Nat.pow_succ', ← Nat.div_div_eq_div_mul, shift, ih (Nat.lt_of_succ_lt_succ h)]
      rfl

/-- R53: lane `i` of packed bytes is the `i`-th of them. -/
theorem lane_packArgs {bs : List Byte} (fits : bs.length ≤ 15) {i : Nat} (h : i < bs.length) :
    lane (packArgs bs) i = bs[i] := by
  have bound : packNat bs < 2 ^ 120 :=
    (packNat_lt bs).trans_le (Nat.pow_le_pow_right (by decide : 0 < 256) fits)
  apply BitVec.eq_of_toNat_eq
  rw [lane, packArgs, BitVec.extractLsb'_toNat, BitVec.toNat_ofNat, Nat.mod_eq_of_lt bound, Nat.shiftRight_eq_div_pow,
    Nat.pow_mul]
  exact packNat_byte h

theorem toNat_ofNat_argc {k : Nat} (fits : k ≤ 15) : (BitVec.ofNat 4 k : Argc).toNat = k := by
  rw [BitVec.toNat_ofNat]; omega

/-- R81, R101: the argument list of packed bytes is those bytes. -/
theorem argList_packArgs {bs : List Byte} (fits : bs.length ≤ 15) :
    argList (BitVec.ofNat 4 bs.length) (packArgs bs) = bs := by
  apply List.ext_getElem
  · rw [argList_length, toNat_ofNat_argc fits]
  · intro i _ h
    simp only [argList, List.getElem_map, List.getElem_range, lane_packArgs fits h]

theorem requestOfBytes_eq_some_iff {a : Addr} {c : Byte} {bs : List Byte} {i : Instr} :
    requestOfBytes a c bs = some i ↔
      bs.length ≤ 15 ∧ instrOf a c (BitVec.ofNat 4 bs.length) (packArgs bs) = i := by
  rw [requestOfBytes, Option.ite_none_right_eq_some, Option.some.injEq]
  rfl

/-- R81, R82: what the request of listed bytes carries. -/
theorem requestOfBytes_spec {a : Addr} {c : Byte} {bs : List Byte} {i : Instr} (h : requestOfBytes a c bs = some i) :
    i.addr = a ∧ i.code = c ∧ i.argc.toNat = bs.length ∧ argList i.argc i.args = bs ∧ i.wellFormed = true := by
  obtain ⟨fits, rfl⟩ := requestOfBytes_eq_some_iff.1 h
  obtain ⟨addr, code, argc, args, wf⟩ := instrOf_spec a c (BitVec.ofNat 4 bs.length) (packArgs bs)
  rw [argc, args]
  exact ⟨addr, code, toNat_ofNat_argc fits, argList_packArgs fits, wf⟩

/-- Settles O26: up to 15 bytes go on the lanes, and more have no request. -/
theorem listedBytesBecomeLanes : Obligations.ListedBytesBecomeLanes := by
  intro a c bs
  refine ⟨fun fits => ?_, fun many => if_neg (Nat.not_le.2 many)⟩
  have line := requestOfBytes_eq_some_iff (a := a) (c := c).2 ⟨fits, rfl⟩
  exact ⟨_, line, requestOfBytes_spec line⟩

/-! ### The Facade operations (R84, R103) -/

/-- R103: `FADE_TO_LEVEL` forms its one triple. -/
theorem formArgs_fadeToLevel (policy : FadePolicy) (l i s : Byte) :
    formArgs policy codeFadeToLevel [l, i, s] = fadeTriple policy l i s := by
  cases policy <;> rfl

/-- R103: `FADE_RGB_TO_LEVEL` forms its three triples. -/
theorem formArgs_fadeRgbToLevel (policy : FadePolicy) (rl ri rs gl gi gs bl bi bs : Byte) :
    formArgs policy codeFadeRgbToLevel [rl, ri, rs, gl, gi, gs, bl, bi, bs] =
      fadeTriple policy rl ri rs ++ fadeTriple policy gl gi gs ++ fadeTriple policy bl bi bs := by
  cases policy <;> rfl

/-- R181: in IDLE a request is accepted with the frame of its raw argument bytes; the widths of `plen` and `flen` hold
their values (R134). -/
theorem acceptsFrame_encodeFrame {s : State} (idle : s.st = .idle) (i : Instr) :
    AcceptsFrame i s (encodeFrame s.params.fadePolicy i.addr i.code (argList i.argc i.args)) := by
  have argc : i.argc.toNat < 16 := i.argc.isLt
  have len := requestPayload_length s.params.fadePolicy i.addr i.code i.argc i.args
  have wire := wireLen_withChecksum_le (p := requestPayload s.params.fadePolicy i.addr i.code i.argc i.args) (by omega)
  refine ⟨_, exec_of_idle idle i, rfl, heldFrame_accept (by omega) s, ?_, ?_, rfl, rfl, rfl, rfl, rfl, rfl, rfl, rfl⟩
  · rw [accept_flen, BitVec.toNat_ofNat, Nat.mod_eq_of_lt (by omega)]
    exact (length_escapeWrap _).symm
  · rw [accept_plen, BitVec.toNat_ofNat, len, Nat.mod_eq_of_lt (by omega)]

/-- R81, R84: in IDLE the request of listed bytes is accepted with the frame of those bytes, formed. -/
theorem acceptsFrame_of_requestOfBytes {s : State} (idle : s.st = .idle) {a : Addr} {c : Byte} {bs l : List Byte}
    {i : Instr} (line : requestOfBytes a c bs = some i) (formed : formArgs s.params.fadePolicy c bs = l) :
    AcceptsFrame i s (escapeWrap (withChecksum (split16 a ++ [c] ++ l))) := by
  obtain ⟨rfl, rfl, -, args, -⟩ := requestOfBytes_spec line
  have accepted := acceptsFrame_encodeFrame idle i
  rw [args, encodeFrame, formed] at accepted
  exact accepted

/-- Settles O25: each operation is the request of a line, and formation touches the two fades only. -/
theorem facadeOperationsFrame : Obligations.FacadeOperationsFrame := by
  intro a x y z r g b s idle frame f
  have raw : ∀ {c : Byte} {i : Instr} (bs : List Byte), requestOfBytes a c bs = some i → c ≠ codeFadeToLevel →
      c ≠ codeFadeRgbToLevel → AcceptsFrame i s (frame c bs) := fun bs line notFade notRgb =>
    acceptsFrame_of_requestOfBytes idle line (formArgs_unfaded notFade notRgb f bs)
  refine ⟨?on, ?off, ?setLevel, ?fadeToLevel, ?setRgb, ?fadeRgb, ?toggle⟩
  case on => exact raw [] rfl (by decide) (by decide)
  case off => exact raw [] rfl (by decide) (by decide)
  case setLevel => exact raw [x] rfl (by decide) (by decide)
  case fadeToLevel =>
    exact acceptsFrame_of_requestOfBytes (bs := r.bytes) idle rfl (formArgs_fadeToLevel f _ _ _)
  case setRgb => exact raw [x, y, z] rfl (by decide) (by decide)
  case fadeRgb =>
    exact acceptsFrame_of_requestOfBytes (bs := r.bytes ++ g.bytes ++ b.bytes) idle rfl
      (formArgs_fadeRgbToLevel f _ _ _ _ _ _ _ _ _)
  case toggle => exact raw [] rfl (by decide) (by decide)

end Sys2Proof.Machine
end

section
/-! PROOFS of the family of 40_packer.md: the address split (R100), the raw argument list (R101), the fade policy and
argument formation (R102, R103), the latch (R104, R105), and the totality of the block (R106, R200). -/

namespace Sys2Proof.Machine

/-! ### The address split (R100) -/

/-- Settles O4: the two bytes are the address shifted and cut to 8 bits. -/
theorem addressSplitReassembles : Obligations.AddressSplitReassembles := by
  intro a
  have high : (a.extractLsb' 8 8).toNat = a.toNat / 256 := by
    rw [BitVec.extractLsb'_toNat, Nat.shiftRight_eq_div_pow]
    omega
  have low : (a.extractLsb' 0 8).toNat = a.toNat % 256 := BitVec.extractLsb'_toNat 0 8 a
  exact ⟨_, _, rfl, high, low, by omega⟩

/-! ### The raw argument list (R101) -/

/-- R101: element `i` of the list is lane `i`. -/
theorem argList_getElem? {n : Argc} {i : Nat} (h : i < n.toNat) (x : Lanes) : (argList n x)[i]? = some (lane x i) := by
  rw [argList, List.getElem?_map, List.getElem?_range h, Option.map_some]

/-- Settles O5: the list is the lanes below the count, read one by one. -/
theorem argumentListReadsCountedLanes : Obligations.ArgumentListReadsCountedLanes :=
  fun n x => ⟨argList_length n x, fun _ h => argList_getElem? h x, fun _ => argList_congr⟩

/-! ### The fade policy (R102) -/

theorem fixI_toNat (b : Byte) : (fixI b).toNat = if b.toNat = 0 then 1 else b.toNat := by
  simp only [fixI, ← BitVec.toNat_inj, apply_ite BitVec.toNat]
  rfl

/-- R102: `fixS`, its bound read as a number. -/
theorem fixS_eq (b : Byte) : fixS b = if b = 0 then 1 else if b.toNat ≤ 127 then b else 127 := rfl

theorem fixS_toNat (b : Byte) : (fixS b).toNat = if b.toNat = 0 then 1 else min b.toNat 127 := by
  simp only [fixS_eq, ← BitVec.toNat_inj, apply_ite BitVec.toNat, min_def]
  rfl

/-- Settles O6: CLAMP gives the interval to `fixI` and the step to `fixS`. -/
theorem fadeTriplePolicy : Obligations.FadeTriplePolicy :=
  fun _ i s => ⟨rfl, fixI i, fixS s, rfl, fixI_toNat i, fixS_toNat s⟩

/-! ### Argument formation (R103) -/

/-- R103: a choice of positions by command code, for the two fade commands alone. -/
theorem mem_fadePositions (code : Byte) (j : Nat) (triple rgb : List Nat) :
    (j ∈ if code = codeFadeToLevel then triple else if code = codeFadeRgbToLevel then rgb else []) ↔
      (code = 0x23 ∧ j ∈ triple) ∨ (code = 0x31 ∧ j ∈ rgb) := by
  by_cases fade : code = codeFadeToLevel
  · subst fade
    simp [codeFadeToLevel]
  · by_cases fadeRgb : code = codeFadeRgbToLevel
    · subst fadeRgb
      simp [codeFadeToLevel, codeFadeRgbToLevel]
    · rw [if_neg fade, if_neg fadeRgb]
      exact iff_of_false List.not_mem_nil fun h => h.elim (fun h => fade h.1) fun h => fadeRgb h.1

theorem mem_intervalPositions (code : Byte) (j : Nat) :
    j ∈ intervalPositions code ↔ (code = 0x23 ∧ j = 1) ∨ (code = 0x31 ∧ (j = 1 ∨ j = 4 ∨ j = 7)) := by
  simpa [intervalPositions] using mem_fadePositions code j [1] [1, 4, 7]

theorem mem_stepPositions (code : Byte) (j : Nat) :
    j ∈ stepPositions code ↔ (code = 0x23 ∧ j = 2) ∨ (code = 0x31 ∧ (j = 2 ∨ j = 5 ∨ j = 8)) := by
  simpa [stepPositions] using mem_fadePositions code j [2] [2, 5, 8]

theorem formByte_eq (policy : FadePolicy) (code : Byte) (j : Nat) (b : Byte) :
    formByte policy code j b =
      if policy = .clamp ∧ j ∈ intervalPositions code then fixI b
      else if policy = .clamp ∧ j ∈ stepPositions code then fixS b
      else b := by
  cases policy <;> simp [formByte]

theorem formArgs_getElem? (policy : FadePolicy) (code : Byte) {r : List Byte} {j : Nat} (h : j < r.length) :
    (formArgs policy code r)[j]? = some (formByte policy code j r[j]) := by
  rw [formArgs, List.getElem?_mapIdx, List.getElem?_eq_getElem h, Option.map_some]

/-- Settles O7: formation goes byte by byte, and its positions are those of one or of three triples. -/
theorem argumentFormation : Obligations.ArgumentFormation := by
  refine ⟨fun policy code r => ⟨formArgs_length policy code r, fun j h => ?_⟩, fun policy =>
    ⟨formArgs_fadeToLevel policy, formArgs_fadeRgbToLevel policy⟩⟩
  rw [formArgs_getElem? policy code h, formByte_eq]
  simp only [mem_intervalPositions, mem_stepPositions, fixI, fixS_eq]

/-! ### The latch (R104, R105) -/

/-- R105: the buffer after the latch, read at any of its entries. -/
theorem pbufRead_latch (p : List Byte) (s : State) {j : Nat} (h : j < 18) :
    pbufRead (latch p s) j = if h : j < p.length then p[j] else 0 := by
  rw [pbufRead_of_lt h]
  simp only [latch_pbuf, latchBuf_getElem p j h]
  split
  · next inside => exact List.getD_eq_getElem p 0 inside
  · next outside => exact List.getD_eq_default p 0 (Nat.le_of_not_lt outside)

/-- Settles O8: the payload's length fits `plen`, and the latch writes `pbuf` and `plen` alone. -/
theorem latchLoadsPayload : Obligations.LatchLoadsPayload := by
  intro policy a c n x s p t
  have len : p.length = 3 + n.toNat := requestPayload_length policy a c n x
  have plen : t.plen.toNat = 3 + n.toNat := by
    have argc : n.toNat < 16 := n.isLt
    rw [latch_plen, BitVec.toNat_ofNat, requestPayload_length, Nat.mod_eq_of_lt (by omega)]
  exact ⟨len, plen, fun _ h => pbufRead_latch p s h, rfl⟩

/-! ### No fault and no refusal (R106, R200) -/

/-- R106: every instruction has a next state. -/
theorem exec_total (i : Instr) (s : State) : ∃ t, exec i s = .next t := ⟨_, exec_eq_request i s⟩

/-- R200: every edge has a next state. -/
theorem step_total (s : State) : ∃ t, step s = .next t := by
  cases fetched : fetch s with
  | none => exact ⟨_, by rw [step, fetched]⟩
  | some i =>
    obtain ⟨t, next⟩ := exec_total i s
    exact ⟨tick t, by rw [step, fetched]; exact congrArg tickOutcome next⟩

/-- Settles O45: whatever is fetched has a next state, and so has an edge at which nothing is. -/
theorem blockNeverStops : Obligations.BlockNeverStops := ⟨step_total, exec_total⟩

end Sys2Proof.Machine
end

section
/-! PROOFS of the family of 41_checksum.md: what the XOR fold does and does not tell apart (R124). -/

namespace Sys2Proof.Machine

/-! ### The fold of changed lists (R124) -/

/-- R124, item 2: one list in two orders has one fold. -/
theorem xorFold_perm {p q : List Byte} (h : p.Perm q) : xorFold p = xorFold q := h.foldl_eq 0

/-- R124, item 3: an error pattern as long as the list changes the fold by its own fold. -/
theorem xorFold_zipWith_xor {p e : List Byte} (h : p.length = e.length) :
    xorFold (List.zipWith (· ^^^ ·) p e) = xorFold p ^^^ xorFold e := by
  induction p generalizing e with
  | nil => simp [List.length_eq_zero_iff.1 h.symm]
  | cons b p ih =>
    obtain ⟨c, e, rfl⟩ := List.exists_cons_of_length_eq_add_one h.symm
    calc xorFold (List.zipWith (· ^^^ ·) (b :: p) (c :: e))
        = (b ^^^ c) ^^^ (xorFold p ^^^ xorFold e) := by
          rw [List.zipWith_cons_cons, xorFold_cons, ih (Nat.succ.inj h)]
      _ = xorFold (b :: p) ^^^ xorFold (c :: e) := by simp only [xorFold_cons]; ac_rfl

/-- Settles O9: the appended fold cancels, order does not matter, and an error pattern that folds to 0 is not seen. -/
theorem checksumProperties : Obligations.ChecksumProperties := by
  refine ⟨xorFold_withChecksum, fun _ _ => xorFold_perm, fun p e len unseen => ?_⟩
  rw [xorFold_zipWith_xor len, unseen]
  exact BitVec.xor_zero

end Sys2Proof.Machine
end

section
/-! PROOFS of the family of 42_escape_framing.md: un-escaping (R136), where the reserved values stand in a frame (R135),
the frame length (R134), and the bytes on the wire from an acceptance on (R139). -/

namespace Sys2Proof.Machine

/-! ### Un-escaping (R136) -/

/-- Settles O10: what stands between the delimiters is the escaped list, and un-escaping undoes that; ESC alone and ESC
before any other byte have no clause. -/
theorem unescapeInvertsEscapeWrap : Obligations.UnescapeInvertsEscapeWrap := by
  refine ⟨fun p => ?_, fun c r notEnd notEsc => ?_, rfl⟩
  · rw [betweenDelimiters_escapeWrap, unescape_escapeAll]
  · exact (if_pos rfl).trans ((if_neg notEnd).trans (if_neg notEsc))

/-! ### Where END and ESC stand (R135) -/

/-- R135: every ESC of the list is followed by the second byte of an escape pair. -/
def EscOpensPair (l : List Byte) : Prop :=
  ∀ i : Nat, l[i]? = some escByte → l[i + 1]? = some escEnd ∨ l[i + 1]? = some escEsc

theorem EscOpensPair.cons {b : Byte} {l : List Byte} (notEsc : b ≠ escByte) (h : EscOpensPair l) :
    EscOpensPair (b :: l) := by
  intro i hi
  cases i with
  | zero => exact absurd (Option.some.inj hi) notEsc
  | succ i => exact h i hi

theorem EscOpensPair.esc_cons {c : Byte} {l : List Byte} (pair : c = escEnd ∨ c = escEsc) (h : EscOpensPair (c :: l)) :
    EscOpensPair (escByte :: c :: l) := by
  intro i hi
  cases i with
  | zero => exact pair.imp (congrArg some) (congrArg some)
  | succ i => exact h i hi

/-- R130, R135: escaping opens a pair at every ESC it writes. -/
theorem EscOpensPair.escapeAll_append {r : List Byte} (h : EscOpensPair r) (p : List Byte) :
    EscOpensPair (escapeAll p ++ r) := by
  induction p with
  | nil => exact h
  | cons b p ih =>
    rw [escapeAll_cons, List.append_assoc]
    rcases escapeByte_cases b with ⟨-, e⟩ | ⟨-, e⟩ | ⟨-, notEsc, e⟩
    · rw [e]; exact (ih.cons (by decide)).esc_cons (.inl rfl)
    · rw [e]; exact (ih.cons (by decide)).esc_cons (.inr rfl)
    · rw [e]; exact ih.cons notEsc

theorem escOpensPair_escapeWrap (p : List Byte) : EscOpensPair (escapeWrap p) := by
  have nil : EscOpensPair [] := fun _ h => nomatch h
  have last : EscOpensPair [endByte] := nil.cons (by decide)
  exact (last.escapeAll_append p).cons (by decide)

theorem count_endByte_escapeWrap (p : List Byte) : (escapeWrap p).count endByte = 2 := by
  simp [escapeWrap, List.count_eq_zero.2 (endByte_notMem_escapeAll p)]

/-- Settles O11: escaping leaves no END and opens a pair at every ESC, and the delimiters are the first byte and the
last. -/
theorem delimiterGuarantee : Obligations.DelimiterGuarantee :=
  fun p => ⟨count_endByte_escapeWrap p, rfl, List.getLast?_concat, escOpensPair_escapeWrap p⟩

/-! ### The frame length (R134) -/

/-- R134: the frame of a request with `n` arguments; for odd `n` the payload has an even number of bytes, so that not
every byte of payload and checksum is reserved. -/
theorem wireLen_request_bounds (policy : FadePolicy) (a : Addr) (c : Byte) (n : Argc) (x : Lanes) :
    let q := withChecksum (requestPayload policy a c n x)
    q.length = n.toNat + 4 ∧ n.toNat + 6 ≤ wireLen q ∧ (n.toNat % 2 = 0 → wireLen q ≤ 2 * n.toNat + 10) ∧
      (n.toNat % 2 = 1 → wireLen q ≤ 2 * n.toNat + 9) := by
  intro q
  have payloadLen := requestPayload_length policy a c n x
  have len : q.length = n.toNat + 4 := by rw [withChecksum_length, payloadLen]; omega
  have wire := wireLen_eq_countP q
  refine ⟨len, by omega, fun _ => ?_, fun odd => ?_⟩
  · have le : q.countP reserved ≤ q.length := List.countP_le_length
    omega
  · have le : q.countP reserved ≤ (requestPayload policy a c n x).length := countP_reserved_withChecksum_le (by omega)
    omega

/-- R134: the request of the longest frame, at an address and with a code and arguments that are all reserved. -/
theorem wireLen_longest (policy : FadePolicy) :
    wireLen (withChecksum (requestPayload policy 0xC0DB 0xC0 15
      (packArgs [0xC0, 0xDB, 0xC0, 0xDB, 0xC0, 0xDB, 0xC0, 0xDB, 0xC0, 0xDB, 0xC0, 0xDB, 0xC0, 0xDB, 0xC0]))) = 39 := by
  cases policy <;> decide

/-- Settles O12: the length counts each reserved byte twice, the parity of the argument count bounds their number, and
an acceptance loads it into `flen`, whose width holds it. -/
theorem frameLengthBounds : Obligations.FrameLengthBounds := by
  refine ⟨fun q => ⟨(length_escapeWrap q).symm, wireLen_eq_countP q⟩, fun policy a c n x => ?_, wireLen_longest,
    fun i s idle => ?_⟩
  · obtain ⟨len, low, even, odd⟩ := wireLen_request_bounds policy a c n x
    have argc : n.toNat < 16 := n.isLt
    exact ⟨len, low, even, odd, by omega, wireLen_withChecksum_le (by rw [requestPayload_length]; omega)⟩
  · obtain ⟨t, next, -, -, flen, -⟩ := acceptsFrame_encodeFrame idle i
    exact ⟨t, next, flen.trans (length_escapeWrap _)⟩

/-! ### The bytes on the wire from an acceptance on (R139) -/

/-- A run of `k` edges and then `m`: the bytes of both, in order. -/
theorem wire_add {k : Nat} {s v : State} (run : runEdges k s = .next v) (m : Nat) :
    wire (k + m) s = wire k s ++ wire m v := by
  induction k generalizing s with
  | zero =>
    injection run with e
    rw [Nat.zero_add, e]
    rfl
  | succ k ih =>
    obtain ⟨u, next⟩ := step_total s
    rw [runEdges_succ next] at run
    rw [Nat.succ_add, wire_succ next, wire_succ next, ih run, List.append_assoc]

/-- A condition that holds along a run holds along its first edges. -/
theorem allEdges_of_le {p : State → Bool} {k n : Nat} {s : State} (le : k ≤ n) (all : allEdges p n s = true) :
    allEdges p k s = true := by
  induction k generalizing n s with
  | zero => rfl
  | succ k ih =>
    obtain ⟨u, next⟩ := step_total s
    cases n with
    | zero => exact absurd le (Nat.not_succ_le_zero k)
    | succ n =>
      rw [allEdges_succ next, Bool.and_eq_true] at all ⊢
      exact ⟨all.1, ih (Nat.le_of_succ_le_succ le) all.2⟩

/-- The state under the default parameters: no register depends on them during a transfer, so that the invariant of R42,
which asks for an `ERR_W` of at least 1, says of this state what R139 needs under any parameters. -/
def withDefaultParams (s : State) : State := { s with params := Params.default }

theorem ByteAcceptance.withDefaultParams {s u : State} (acc : ByteAcceptance s u) :
    ByteAcceptance (withDefaultParams s) (withDefaultParams u) := by
  cases acc with
  | startDelimiter sof => exact .startDelimiter sof
  | escape body res => exact .escape body res
  | payloadByte last lt => exact .payloadByte last lt
  | checksum last nlt => exact .checksum last nlt
  | endDelimiter eof => exact .endDelimiter eof

/-- R139: `s` is a state after the acceptance of a request with the frame `frame`, in which the bytes accepted so far
are `w`. In a transfer state the registers hold the frame and stand just behind `w`. -/
structure Delivered (frame w : List Byte) (s : State) : Prop where
  isPrefix : w <+: frame
  cnt_eq : s.cnt.toNat = w.length
  flen_eq : s.flen.toNat = frame.length
  transfer : s.st.transfer = true → BlockInv (withDefaultParams s) ∧ heldFrame s = frame ∧ sent s = w

section
variable {frame w : List Byte} {s t : State}

/-- R31, R139: in a transfer state the byte presented is the frame's next, and the counter has room for it. -/
theorem Delivered.presents (d : Delivered frame w s) (tr : s.st.transfer = true) :
    w ++ [outData s] <+: frame ∧ (s.cnt + 1).toNat = (w ++ [outData s]).length := by
  obtain ⟨inv, rfl, rfl⟩ := d.transfer tr
  have next := sent_append_outData_prefix inv tr
  have count := toNat_cnt_add_one inv tr
  refine ⟨next, count.trans ?_⟩
  rw [List.length_append]
  exact congrArg (· + 1) d.cnt_eq

/-- R188: an abort delivers the byte presented where the sink accepts it at the same edge. -/
theorem Delivered.abort (d : Delivered frame w s) (tr : s.st.transfer = true) (inp : Inputs) :
    Delivered frame (w ++ if inp.outReady then [outData s] else []) (tick (sinkAbort inp s)) := by
  obtain ⟨next, count⟩ := d.presents tr
  have flen : (tick (sinkAbort inp s)).flen.toNat = frame.length := by simpa using d.flen_eq
  cases rdy : inp.outReady with
  | true => exact ⟨by simpa using next, by simpa [rdy] using count, flen, by simp [Fsm.transfer]⟩
  | false => exact ⟨by simpa using d.isPrefix, by simpa [rdy] using d.cnt_eq, flen, by simp [Fsm.transfer]⟩

/-- R183 to R187: the acceptance of a byte delivers it. -/
theorem Delivered.byte (d : Delivered frame w s) (tr : s.st.transfer = true) (acc : ByteAcceptance s t) :
    Delivered frame (w ++ [outData s]) (tick t) := by
  obtain ⟨next, count⟩ := d.presents tr
  obtain ⟨inv, held, rfl⟩ := d.transfer tr
  have acc' := acc.withDefaultParams
  refine ⟨next, ?_, ?_, fun tr' => ⟨?_, acc.heldFrame_eq.trans held, acc'.sent_eq inv tr'⟩⟩
  · rw [tick_cnt, acc.cnt_eq, count]
  · rw [tick_flen, acc.flen_eq, d.flen_eq]
  · exact blockInv_tick (blockInv_of_byteAcceptance inv tr acc')

/-- R193: an edge that accepts nothing and stays in its state delivers nothing. -/
theorem Delivered.tick (d : Delivered frame w s) : Delivered frame w (tick s) :=
  ⟨d.isPrefix, d.cnt_eq, d.flen_eq, fun tr =>
    have ⟨inv, held, sent⟩ := d.transfer tr
    ⟨blockInv_tick inv, held, sent⟩⟩

/-- R139: an edge of a request in flight delivers the byte accepted at it, if one is. -/
theorem Delivered.edge (d : Delivered frame w s) (flight : inFlight s = true) (edge : Edge s t) :
    Delivered frame (w ++ if byteAccepted s then [(outputs s).outData] else []) t := by
  have busy : s.st ≠ .idle := fun idle => by simp [inFlight, idle] at flight
  cases edge with
  | reset rst => simp [inFlight, rst] at flight
  | request acc => exact absurd ((fetch_eq_some_iff s _).1 acc).1.1 busy
  | abort rst tr ab =>
    have accepts : byteAccepted s = s.now.outReady := by simp [byteAccepted_eq, rst, tr]
    rw [accepts]
    exact d.abort tr s.now
  | byte rst tr ab rdy acc =>
    have accepts : byteAccepted s = true := by simp [byteAccepted_eq, rst, tr, rdy]
    rw [if_pos accepts]
    exact d.byte tr acc
  | response rst rsp rdy =>
    rw [byteAccepted_of_rsp rsp, if_neg Bool.false_ne_true, List.append_nil]
    exact ⟨d.isPrefix, d.cnt_eq, d.flen_eq, by simp [Fsm.transfer]⟩
  | wait rst noReq noSink noRsp =>
    rw [byteAccepted_of_stalled noSink, if_neg Bool.false_ne_true, List.append_nil]
    exact d.tick

/-- R139: a run of a request in flight delivers the bytes accepted in it. -/
theorem Delivered.run (d : Delivered frame w s) {n : Nat} (flight : allEdges inFlight n s = true)
    (run : runEdges n s = .next t) : Delivered frame (w ++ wire n s) t := by
  induction n generalizing s w with
  | zero =>
    injection run with e
    subst e
    simpa [wire] using d
  | succ n ih =>
    obtain ⟨u, next⟩ := step_total s
    rw [runEdges_succ next] at run
    rw [allEdges_succ next, Bool.and_eq_true] at flight
    rw [wire_succ next, ← List.append_assoc]
    exact ih (d.edge flight.1 (edge_of_step next)) flight.2 run

/-- R181: an acceptance has delivered nothing yet of its request's frame. -/
theorem delivered_accept {p : List Byte} (hmin : 3 ≤ p.length) (hmax : p.length ≤ 18) (s : State) :
    Delivered (escapeWrap (withChecksum p)) [] (accept p s) := by
  have inv : BlockInv (accept p (withDefaultParams s)) := blockInv_accept (show 1 ≤ 8 by decide) hmin hmax
  have held := heldFrame_accept hmax s
  have ⟨_, _, _, ⟨_, _, flen, _⟩, _⟩ := inv
  exact ⟨List.nil_prefix, rfl, (flen (by simp)).trans (congrArg List.length held), fun _ => ⟨inv, held, rfl⟩⟩

theorem delivered_of_fetch {i : Instr} (acc : fetch s = some i) (next : step s = .next t) :
    Delivered (encodeFrame s.params.fadePolicy i.addr i.code (argList i.argc i.args)) [] t := by
  rcases step_cases next with ⟨j, same, rfl⟩ | ⟨none, -⟩
  · obtain rfl : i = j := Option.some.inj (acc.symm.trans same)
    have argc : i.argc.toNat < 16 := i.argc.isLt
    have start := delivered_accept (p := requestPayload s.params.fadePolicy i.addr i.code i.argc i.args)
      (by simp) (by simp; omega) s
    exact start.tick
  · simp [acc] at none

/-- R23, R181: the edge that accepts a request accepts no byte. -/
theorem byteAccepted_of_fetch {i : Instr} (acc : fetch s = some i) : byteAccepted s = false := by
  have idle : s.st = .idle := ((fetch_eq_some_iff s i).1 acc).1.1
  exact byteAccepted_of_stalled fun tr => absurd idle (not_idle_of_transfer tr)

/-- R187: where the end delimiter is accepted, the whole frame is delivered. -/
theorem Delivered.eof (d : Delivered frame w s) (eof : s.st = .eof) : w ++ [outData s] = frame := by
  obtain ⟨-, held, sent⟩ := d.transfer (by simp [eof, Fsm.transfer])
  rw [← held, ← sent]
  simp [Machine.sent, outData, eof, heldFrame, escapeWrap]

end

/-- R187, R139: a run in which the sink accepts the end delimiter, from a state that has delivered nothing, delivers the
whole frame, and no byte after it. -/
theorem Delivered.wire_eq_frame {frame : List Byte} {k n : Nat} {u v t : State} (d : Delivered frame [] u)
    (flight : allEdges inFlight n u = true) (run : runEdges n u = .next t) (lt : k < n)
    (part : runEdges k u = .next v) (eof : v.st = .eof) (ready : sinkReady v = true) : wire n u = frame := by
  obtain ⟨m, rfl⟩ := Nat.exists_eq_add_of_lt lt
  obtain ⟨x, next⟩ := step_total v
  have whole : wire k u ++ [outData v] = frame := (d.run (allEdges_of_le (by omega) flight) part).eof eof
  have accepts : byteAccepted v = true := by
    simp only [sinkReady, Bool.and_eq_true] at ready
    simp [byteAccepted_eq, ready, eof, Fsm.transfer]
  have parts : wire (k + m + 1) u = frame ++ wire m x := by
    rw [Nat.add_assoc, wire_add part, wire_succ next, if_pos accepts, ← List.append_assoc]
    exact congrArg (· ++ wire m x) whole
  have le : wire (k + m + 1) u <+: frame := (d.run flight run).isPrefix
  exact le.eq_of_length_le (by simp [parts])

/-- Settles O54: the run from the acceptance on delivers what it accepts, the counter and the frame length go with it,
and an accepted end delimiter makes it whole. -/
theorem frameCorrectness : Obligations.FrameCorrectness := by
  intro n i s u t acc next flight run frame
  have start := delivered_of_fetch acc next
  have bytes : wire (n + 1) s = wire n u := by simp [wire_succ next, byteAccepted_of_fetch acc]
  obtain ⟨isPrefix, cnt, flen, -⟩ := start.run flight run
  rw [bytes]
  refine ⟨?_, cnt, flen, cnt, flen, fun ⟨k, v, lt, part, eof, ready⟩ => ?_⟩
  · rw [cnt]
    exact List.prefix_iff_eq_take.1 isPrefix
  · have whole := start.wire_eq_frame flight run lt part eof ready
    refine ⟨whole, BitVec.eq_of_toNat_eq ?_⟩
    rw [cnt, flen, List.nil_append, whole]

end Sys2Proof.Machine
end

section
/-! PROOFS of the family of 43_commands.md: what each command frames, raw or formed (R150 to R161), and the registers of
its acceptance (R149). -/

namespace Sys2Proof.Machine

/-! ### The acceptance of a command (R149, R181) -/

/-- Settles O16: the acceptance loads the request's payload, whose length R104 gives. -/
theorem everyCommandIsAccepted : Obligations.EveryCommandIsAccepted := by
  intro i s idle p
  have len : p.length = 3 + i.argc.toNat := requestPayload_length s.params.fadePolicy i.addr i.code i.argc i.args
  rw [exec_of_idle idle, ← len]
  rfl

/-! ### Frames of raw and of formed arguments (R103, R133) -/

/-- R104, R133: in IDLE a command is accepted with the frame of its formed argument bytes. -/
theorem acceptsFrame_of_formArgs {s : State} (idle : s.st = .idle) {i : Instr} {l : List Byte}
    (formed : formArgs s.params.fadePolicy i.code (argList i.argc i.args) = l) :
    AcceptsFrame i s (escapeWrap (withChecksum (split16 i.addr ++ [i.code] ++ l))) :=
  formed ▸ acceptsFrame_encodeFrame idle i

/-- R103: in IDLE a command whose code names no fade is accepted with the frame of its raw argument bytes, under either
policy. -/
theorem acceptsFrame_unfaded {s : State} (idle : s.st = .idle) {i : Instr} {c : Byte} (code : i.code = c)
    (notFade : c ≠ codeFadeToLevel) (notRgb : c ≠ codeFadeRgbToLevel) :
    AcceptsFrame i s (escapeWrap (withChecksum (split16 i.addr ++ [c] ++ argList i.argc i.args))) := by
  subst code
  exact acceptsFrame_of_formArgs idle (formArgs_unfaded notFade notRgb _ _)

/-- R104, R121: the payload of the bytes `l` and its checksum, folded from the address bytes and the code on. -/
theorem withChecksum_split16_append (a : Addr) (c : Byte) (l : List Byte) :
    withChecksum (split16 a ++ [c] ++ l) = [a.extractLsb' 8 8, a.extractLsb' 0 8, c] ++ l ++
      [l.foldl (· ^^^ ·) (a.extractLsb' 8 8 ^^^ a.extractLsb' 0 8 ^^^ c)] := by
  rw [withChecksum, foldl_xor, xorFold_append]
  simp [split16, BitVec.xor_assoc]

/-- R103: in IDLE a command whose code names no fade is accepted with the frame of the address bytes, the code, the
counted lanes and the XOR of them all. -/
theorem acceptsFrame_unfaded_bytes {s : State} (idle : s.st = .idle) {i : Instr} {c : Byte} {l : List Byte}
    (code : i.code = c) (notFade : c ≠ codeFadeToLevel) (notRgb : c ≠ codeFadeRgbToLevel)
    (lanes : argList i.argc i.args = l) :
    AcceptsFrame i s (escapeWrap ([i.addr.extractLsb' 8 8, i.addr.extractLsb' 0 8, c] ++ l ++
      [l.foldl (· ^^^ ·) (i.addr.extractLsb' 8 8 ^^^ i.addr.extractLsb' 0 8 ^^^ c)])) := by
  rw [← withChecksum_split16_append, ← lanes]
  exact acceptsFrame_unfaded idle code notFade notRgb

/-! ### The rows of the table (R150 to R161) -/

/-- Settles O17: the three codes name no fade, and at count 0 there is no lane to frame. -/
theorem powerCommandFrames : Obligations.PowerCommandFrames := by
  intro a n x s idle hi lo
  refine ⟨⟨?on0, ?off0, ?toggle0⟩, ?on, ?off, ?toggle⟩
  case on0 => exact acceptsFrame_unfaded_bytes (l := []) idle rfl (by decide) (by decide) rfl
  case off0 => exact acceptsFrame_unfaded_bytes (l := []) idle rfl (by decide) (by decide) rfl
  case toggle0 => exact acceptsFrame_unfaded_bytes (l := []) idle rfl (by decide) (by decide) rfl
  case on => exact acceptsFrame_unfaded idle rfl (by decide) (by decide)
  case off => exact acceptsFrame_unfaded idle rfl (by decide) (by decide)
  case toggle => exact acceptsFrame_unfaded idle rfl (by decide) (by decide)

/-- Settles O18: the two codes name no fade, so no level is formed. -/
theorem levelCommandFrames : Obligations.LevelCommandFrames := by
  intro a n x s idle hi lo b
  refine ⟨?level1, ?rgb3, ?level, ?rgb⟩
  case level1 => exact acceptsFrame_unfaded_bytes (l := [b 0]) idle rfl (by decide) (by decide) rfl
  case rgb3 => exact acceptsFrame_unfaded_bytes (l := [b 0, b 1, b 2]) idle rfl (by decide) (by decide) rfl
  case level => exact acceptsFrame_unfaded idle rfl (by decide) (by decide)
  case rgb => exact acceptsFrame_unfaded idle rfl (by decide) (by decide)

/-- Settles O19: three counted lanes are formed as one triple. -/
theorem fadeToLevelFrame : Obligations.FadeToLevelFrame := by
  intro a n x s idle b p
  have triple : AcceptsFrame (.fadeToLevel a 3 x) s (escapeWrap (withChecksum p)) :=
    acceptsFrame_of_formArgs idle (formArgs_fadeToLevel s.params.fadePolicy (b 0) (b 1) (b 2))
  exact ⟨triple, acceptsFrame_encodeFrame idle (.fadeToLevel a n x)⟩

/-- Settles O20: nine counted lanes are formed as three triples. -/
theorem fadeRgbToLevelFrame : Obligations.FadeRgbToLevelFrame := by
  intro a n x s idle b f p
  have triples : AcceptsFrame (.fadeRgbToLevel a 9 x) s (escapeWrap (withChecksum p)) :=
    acceptsFrame_of_formArgs idle
      (formArgs_fadeRgbToLevel s.params.fadePolicy (b 0) (b 1) (b 2) (b 3) (b 4) (b 5) (b 6) (b 7) (b 8))
  exact ⟨triples, acceptsFrame_encodeFrame idle (.fadeRgbToLevel a n x)⟩

/-- Settles O21: the four codes name no fade. -/
theorem rawCommandFrames : Obligations.RawCommandFrames := by
  intro a n x s idle
  refine ⟨?legacyFade, ?setPseudo, ?erasePseudo, ?fadeMultiple⟩
  case legacyFade => exact acceptsFrame_unfaded idle rfl (by decide) (by decide)
  case setPseudo => exact acceptsFrame_unfaded idle rfl (by decide) (by decide)
  case erasePseudo => exact acceptsFrame_unfaded idle rfl (by decide) (by decide)
  case fadeMultiple => exact acceptsFrame_unfaded idle rfl (by decide) (by decide)

/-- Settles O22: both fade codes are in the table, so a code outside it names no fade. -/
theorem unlistedCodeFrame : Obligations.UnlistedCodeFrame := by
  intro a c n x s idle wf
  have unlisted : c ∉ listedCodes := by simpa [Instr.wellFormed] using wf
  have notFade : c ≠ codeFadeToLevel := fun e => unlisted (e ▸ by decide)
  have notRgb : c ≠ codeFadeRgbToLevel := fun e => unlisted (e ▸ by decide)
  exact acceptsFrame_unfaded idle rfl notFade notRgb

end Sys2Proof.Machine
end

section
/-! PROOFS of the family of 44_transfer.md: what each FSM state does at an edge (R181 to R190, R194), what the block
ignores (R191), what stays while it waits (R192, R193), and the balance of requests and responses (R195). -/

namespace Sys2Proof.Machine

/-! ### The step at each kind of edge (R180) -/

/-- R180: the step of an edge that accepts no request. -/
theorem step_of_not_requestAccepted {s : State} (noReq : requestAccepted s = false) :
    step s = .next (tick (quietEdge s.now s)) := by
  have none : fetch s = none := by simp [fetch, noReq]
  rw [step, none]

/-- R22, R181: the step of an edge that accepts a request. -/
theorem step_of_fetch {s : State} {i : Instr} (acc : fetch s = some i) :
    step s = .next (tick (accept (requestPayload s.params.fadePolicy i.addr i.code i.argc i.args) s)) := by
  have idle : s.st = .idle := ((fetch_eq_some_iff s i).1 acc).1.1
  simp only [step, acc, exec_of_idle idle, tickOutcome]

theorem reserved_eq_false_iff (b : Byte) : reserved b = false ↔ ¬ (b = 0xC0 ∨ b = 0xDB) := by
  rw [Bool.eq_false_iff, Ne, reserved_iff]
  rfl

/-- R184 to R186: the byte presented is the last of its escape in ESC2, and in BODY where it needs no escape. -/
theorem completesByte_iff (s : State) :
    completesByte s = true ↔ s.st = .esc2 ∨ (s.st = .body ∧ reserved (cur s) = false) := by
  simp [completesByte]

section
variable {inp : Inputs} {s u : State}

theorem transferEdge_abort (ab : inp.snkAbort = true) (f : State → State) : transferEdge f inp s = sinkAbort inp s :=
  if_pos ab

theorem transferEdge_accepted (ab : inp.snkAbort = false) (rdy : inp.outReady = true) (f : State → State) :
    transferEdge f inp s = f s := by
  simp [transferEdge, ab, rdy]

theorem transferEdge_stalled (ab : inp.snkAbort = false) (rdy : inp.outReady = false) (f : State → State) :
    transferEdge f inp s = s := by
  simp [transferEdge, ab, rdy]

/-- R182: the four transfer states differ in their own step only. -/
theorem quietEdge_transfer (rst : inp.rst = false) (tr : s.st.transfer = true) :
    ∃ f, quietEdge inp s = transferEdge f inp s := by
  cases st : s.st with
  | idle => simp [st, Fsm.transfer] at tr
  | sof => exact ⟨_, quietEdge_sof rst st⟩
  | body => exact ⟨_, quietEdge_body rst st⟩
  | esc2 => exact ⟨_, quietEdge_esc2 rst st⟩
  | eof => exact ⟨_, quietEdge_eof rst st⟩
  | rsp => simp [st, Fsm.transfer] at tr

/-- R184 to R186: where the last wire byte of a byte is accepted, the block advances. -/
theorem quietEdge_of_completesByte (rst : inp.rst = false) (ab : inp.snkAbort = false) (rdy : inp.outReady = true)
    (last : completesByte s = true) : quietEdge inp s = advance (countByte s) := by
  rcases (completesByte_iff s).1 last with esc2 | ⟨body, res⟩
  · rw [quietEdge_esc2 rst esc2, transferEdge_accepted ab rdy, esc2Accepted]
  · rw [quietEdge_body rst body, transferEdge_accepted ab rdy, bodyAccepted, res, if_neg Bool.false_ne_true]

/-- R183 to R187: the edge at which the byte presented is accepted. -/
theorem quietEdge_of_byteAcceptance (rst : inp.rst = false) (ab : inp.snkAbort = false) (rdy : inp.outReady = true)
    (acc : ByteAcceptance s u) : quietEdge inp s = u := by
  cases acc with
  | startDelimiter sof => rw [quietEdge_sof rst sof, transferEdge_accepted ab rdy]; rfl
  | escape body res => rw [quietEdge_body rst body, transferEdge_accepted ab rdy, bodyAccepted, if_pos res]; rfl
  | payloadByte last lt =>
    rw [quietEdge_of_completesByte rst ab rdy last, cur_of_lt lt]
    exact if_pos lt
  | checksum last nlt =>
    rw [quietEdge_of_completesByte rst ab rdy last]
    exact if_neg nlt
  | endDelimiter eof => rw [quietEdge_eof rst eof, transferEdge_accepted ab rdy]; rfl

/-- R193: an edge at which nothing happens that the block waits for. -/
theorem quietEdge_of_wait (rst : inp.rst = false)
    (noSink : s.st.transfer = true → inp.snkAbort = false ∧ inp.outReady = false)
    (noRsp : s.st = .rsp → inp.rspReady = false) : quietEdge inp s = s := by
  cases tr : s.st.transfer with
  | true =>
    obtain ⟨f, edge⟩ := quietEdge_transfer rst tr
    rw [edge, transferEdge_stalled (noSink tr).1 (noSink tr).2]
  | false =>
    cases st : s.st with
    | idle => exact quietEdge_idle rst st
    | rsp => simp [quietEdge_rsp rst st, responseEdge, noRsp st]
    | _ => simp [st, Fsm.transfer] at tr

end

/-- The step of each kind of edge, the converse of `edge_of_step`. -/
theorem step_of_edge {s t : State} (edge : Edge s t) : step s = .next t := by
  cases edge with
  | reset rst => exact step_of_rst rst
  | request acc => exact step_of_fetch acc
  | abort rst tr ab =>
    obtain ⟨f, edge⟩ := quietEdge_transfer rst tr
    rw [step_of_not_requestAccepted (requestAccepted_of_transfer tr), edge, transferEdge_abort ab]
  | byte rst tr ab rdy acc =>
    rw [step_of_not_requestAccepted (requestAccepted_of_transfer tr), quietEdge_of_byteAcceptance rst ab rdy acc]
  | response rst rsp rdy =>
    rw [step_of_not_requestAccepted (requestAccepted_of_rsp rsp), quietEdge_rsp rst rsp, responseEdge, if_pos rdy]
  | wait rst noReq noSink noRsp =>
    rw [step_of_not_requestAccepted noReq, quietEdge_of_wait rst noSink noRsp]

theorem transfer_of_completesByte {s : State} (last : completesByte s = true) : s.st.transfer = true := by
  rcases (completesByte_iff s).1 last with esc2 | ⟨body, -⟩
  · simp [esc2, Fsm.transfer]
  · simp [body, Fsm.transfer]

/-- R182: a byte is accepted in the transfer states only. -/
theorem ByteAcceptance.transfer {s u : State} (acc : ByteAcceptance s u) : s.st.transfer = true := by
  cases acc with
  | startDelimiter sof => simp [sof, Fsm.transfer]
  | escape body res => simp [body, Fsm.transfer]
  | payloadByte last lt => exact transfer_of_completesByte last
  | checksum last nlt => exact transfer_of_completesByte last
  | endDelimiter eof => simp [eof, Fsm.transfer]

/-- R183 to R187: the step at which the byte presented is accepted. -/
theorem step_of_byteAcceptance {s u : State} (rst : s.now.rst = false) (ab : s.now.snkAbort = false)
    (rdy : s.now.outReady = true) (acc : ByteAcceptance s u) : step s = .next (tick u) :=
  step_of_edge (.byte rst acc.transfer ab rdy acc)

/-- R193: the sink's part of `waiting`. -/
theorem waiting_of_transfer {s : State} (tr : s.st.transfer = true) :
    waiting s = (!s.now.rst && (!s.now.outReady && !s.now.snkAbort)) := by
  cases st : s.st with
  | idle => simp [st, Fsm.transfer] at tr
  | rsp => simp [st, Fsm.transfer] at tr
  | _ => simp [waiting, st]

/-- R193: the step of an edge at which nothing happens that the block waits for. -/
theorem step_of_waiting {s : State} (w : waiting s = true) : step s = .next (tick s) := by
  refine step_of_edge (.wait ?rst ?noReq ?noSink ?noRsp)
  case rst =>
    rw [waiting, Bool.and_eq_true, Bool.not_eq_true'] at w
    exact w.1
  case noReq =>
    rw [Bool.eq_false_iff, Ne, requestAccepted_iff]
    rintro ⟨idle, -, valid⟩
    simp [waiting, idle, valid] at w
  case noSink =>
    intro tr
    simp only [waiting_of_transfer tr, Bool.and_eq_true, Bool.not_eq_true'] at w
    exact ⟨w.2.2, w.2.1⟩
  case noRsp =>
    intro rsp
    simp only [waiting, rsp, Bool.and_eq_true, Bool.not_eq_true'] at w
    exact w.2

/-- R23, R193: a transfer state waits while the sink neither accepts nor aborts. -/
theorem step_of_stalled {s : State} (rst : s.now.rst = false) (tr : s.st.transfer = true)
    (ab : s.now.snkAbort = false) (rdy : s.now.outReady = false) : step s = .next (tick s) :=
  step_of_waiting (by simp [waiting_of_transfer tr, rst, ab, rdy])

/-! ### IDLE (R181) -/

/-- R22, R181: the step that accepts the request on the port, whose word decodes to its fields. -/
theorem step_of_request {s : State} (idle : s.st = .idle) (rst : s.now.rst = false) (valid : s.now.cmdValid = true) :
    step s = .next (tick (accept
      (requestPayload s.params.fadePolicy s.now.cmdAddr s.now.cmdCode s.now.cmdArgc s.now.cmdArgs) s)) := by
  obtain ⟨addr, code, argc, args, -⟩ := instrOf_spec s.now.cmdAddr s.now.cmdCode s.now.cmdArgc s.now.cmdArgs
  have word : decode (requestWord s.now) = instrOf s.now.cmdAddr s.now.cmdCode s.now.cmdArgc s.now.cmdArgs := by
    simp [decode, requestWord]
  rw [step_of_fetch ((fetch_eq_some_iff s _).2 ⟨⟨idle, rst, valid⟩, word⟩), addr, code, argc, args]

/-- R134, R181: `flen` holds the length of every frame. -/
theorem toNat_accept_flen {p : List Byte} (h : p.length ≤ 18) (s : State) :
    (accept p s).flen.toNat = wireLen (withChecksum p) := by
  have len : wireLen (withChecksum p) ≤ 39 := wireLen_withChecksum_le h
  rw [accept_flen, BitVec.toNat_ofNat, Nat.mod_eq_of_lt (by omega)]

/-- Settles O29: the acceptance is the latch of the request's payload and the cleared registers, and without a request
the block waits. -/
theorem idleStep : Obligations.IdleStep := by
  intro s idle rst p
  refine ⟨by simp [outputs, outputsAt, cmdReady, idle, rst], fun valid => ?_, fun noValid => ?_⟩
  · obtain ⟨len, plen, read, -⟩ :=
      latchLoadsPayload s.params.fadePolicy s.now.cmdAddr s.now.cmdCode s.now.cmdArgc s.now.cmdArgs s
    have argc : s.now.cmdArgc.toNat < 16 := s.now.cmdArgc.isLt
    refine ⟨_, step_of_request idle rst valid, rfl, fun j h => ?_, plen, rfl, rfl, rfl, ?_, rfl, rfl, rfl⟩
    · rw [pbufRead_tick h]
      exact read j h
    · exact toNat_accept_flen (len.trans_le (by omega)) s
  · exact step_of_waiting (by simp [waiting, idle, rst, noValid])

/-- Settles O23: a request is taken up in IDLE only. -/
theorem requestTurnedAwayWhileBusy : Obligations.RequestTurnedAwayWhileBusy := by
  intro i s busy
  rw [exec_eq_request, request, if_neg busy]

/-! ### The transfer states (R183 to R188) -/

/-- Settles O30: the acceptance of the start delimiter, or the wait for it. -/
theorem startDelimiterStep : Obligations.StartDelimiterStep := by
  intro s sof rst ab
  have tr : s.st.transfer = true := by simp [sof, Fsm.transfer]
  refine ⟨?data, by simp [outputs, outputsAt, sof], tr, ?accepted, step_of_stalled rst tr ab⟩
  case data => simp [outputs, outputsAt, outData, sof, endByte]
  case accepted => exact fun rdy => step_of_byteAcceptance rst ab rdy (.startDelimiter sof)

/-- R186: the step at which the last wire byte of a byte is accepted, below `plen` and at it. -/
theorem step_of_completesByte {s : State} (rst : s.now.rst = false) (ab : s.now.snkAbort = false)
    (rdy : s.now.outReady = true) (last : completesByte s = true) :
    (s.idx.toNat < s.plen.toNat →
      step s = .next (tick
        { s with cnt := s.cnt + 1, csum := s.csum ^^^ pbufRead s s.idx.toNat, idx := s.idx + 1, st := .body })) ∧
    (¬ s.idx.toNat < s.plen.toNat → step s = .next (tick { s with cnt := s.cnt + 1, st := .eof })) := by
  refine ⟨fun lt => ?_, fun nlt => step_of_byteAcceptance rst ab rdy (.checksum last nlt)⟩
  rw [← cur_of_lt lt]
  exact step_of_byteAcceptance rst ab rdy (.payloadByte last lt)

/-- Settles O31: a reserved byte begins its escape pair, and any other is complete at once. -/
theorem payloadByteStep : Obligations.PayloadByteStep := by
  intro s body rst ab
  have tr : s.st.transfer = true := by simp [body, Fsm.transfer]
  have last (plain : ¬ (cur s = 0xC0 ∨ cur s = 0xDB)) : completesByte s = true :=
    (completesByte_iff s).2 (.inr ⟨body, (reserved_eq_false_iff _).2 plain⟩)
  refine ⟨?data, step_of_stalled rst tr ab, ?escape, ?payloadByte, ?checksum⟩
  case data => simp [outputs, outputsAt, outData, body, escFirst_eq]
  case escape => exact fun rdy res => step_of_byteAcceptance rst ab rdy (.escape body ((reserved_iff _).2 res))
  case payloadByte => exact fun rdy plain => (step_of_completesByte rst ab rdy (last plain)).1
  case checksum => exact fun rdy plain => (step_of_completesByte rst ab rdy (last plain)).2

/-- Settles O32: the second byte of an escape pair completes the byte. -/
theorem escapePairStep : Obligations.EscapePairStep := by
  intro s esc2 rst ab
  have tr : s.st.transfer = true := by simp [esc2, Fsm.transfer]
  have last : completesByte s = true := (completesByte_iff s).2 (.inl esc2)
  refine ⟨?data, step_of_stalled rst tr ab, ?payloadByte, ?checksum⟩
  case data => simp [outputs, outputsAt, outData, esc2, escSecond_eq]
  case payloadByte => exact fun rdy => (step_of_completesByte rst ab rdy last).1
  case checksum => exact fun rdy => (step_of_completesByte rst ab rdy last).2

/-- R187: in EOF the end delimiter is the one byte of the frame still to be counted. -/
theorem cnt_add_one_of_eof {s : State} (inv : BlockInv s) (eof : s.st = .eof) : s.cnt + 1 = s.flen := by
  have tr : s.st.transfer = true := by simp [eof, Fsm.transfer]
  have succ := toNat_cnt_add_one inv tr
  obtain ⟨-, -, -, ⟨-, -, hlen, hsent⟩, -⟩ := inv
  apply BitVec.eq_of_toNat_eq
  rw [succ, hsent tr, hlen (not_idle_of_transfer tr)]
  simp [sent, eof, heldFrame, escapeWrap]

/-- Settles O33: the acceptance of the end delimiter, or the wait for it; the error record of a transfer state is
clear. -/
theorem endDelimiterStep : Obligations.EndDelimiterStep := by
  intro s eof rst ab
  have tr : s.st.transfer = true := by simp [eof, Fsm.transfer]
  refine ⟨?data, by simp [outputs, outputsAt, eof], step_of_stalled rst tr ab, ?accepted, fun inv => ?record⟩
  case data => simp [outputs, outputsAt, outData, eof, endByte]
  case accepted => exact fun rdy => step_of_byteAcceptance rst ab rdy (.endDelimiter eof)
  case record =>
    have count := cnt_add_one_of_eof inv eof
    obtain ⟨-, -, -, -, ⟨hzero, -, hclear⟩⟩ := inv
    exact ⟨count, hclear tr, hzero (hclear tr)⟩

/-- R188: the registers after an abort. -/
theorem sinkAbort_eq (inp : Inputs) (s : State) :
    sinkAbort inp s =
      { s with
        cnt := if inp.outReady then s.cnt + 1 else s.cnt
        rerr := inp.snkErr
        rcode := if inp.snkErr then inp.snkErrCode % 2 ^ s.params.errW else 0
        st := .rsp } := by
  cases rdy : inp.outReady <;> simp [sinkAbort, rdy, enterResponse, countByte, abortErr, abortCode, errToken]

/-- Settles O34: the abort's edge, which in EOF may count the end delimiter. -/
theorem sinkAbortStep : Obligations.SinkAbortStep := by
  intro s tr rst ab
  refine ⟨?_, fun inv eof _ => cnt_add_one_of_eof inv eof⟩
  rw [step_of_edge (.abort rst tr ab), sinkAbort_eq]

/-! ### RSP (R189, R190) -/

/-- Settles O37: the response's edge, or the wait for it. -/
theorem responseStep : Obligations.ResponseStep := by
  intro s rsp rst
  refine ⟨?valid, rfl, rfl, rfl, rfl, ?busy, fun rdy => step_of_edge (.response rst rsp rdy), fun notRdy => ?wait⟩
  case valid => simp [outputs, outputsAt, rsp]
  case busy => simp [outputs, outputsAt, cmdReady, rsp]
  case wait => exact step_of_waiting (by simp [waiting, rsp, rst, notRdy])

/-! ### Waiting (R192, R193) -/

/-- Settles O38: by induction on the number of edges, each of which passes one cycle. -/
theorem waitingChangesNothing : Obligations.WaitingChangesNothing := by
  intro n s all
  induction n generalizing s with
  | zero => rfl
  | succ n ih =>
    have w : waiting s = true := by
      rw [allEdges, Bool.and_eq_true] at all
      exact all.1
    have next := step_of_waiting w
    rw [allEdges_succ next, Bool.and_eq_true] at all
    rw [runEdges_succ next, ih (tick s) all.2]
    simp [tick, Nat.add_comm, Nat.add_left_comm]

/-- R35: a state of the invariant reads its current byte from the registers alone, whatever the inputs and the time. -/
theorem cur_of_registers {s : State} (h : s.plen.toNat ≤ 18) (l : List Inputs) (c : Nat) :
    cur { s with inputs := l, cycle := c } = cur s := by
  by_cases lt : s.idx < s.plen
  · have idx : s.idx.toNat < 18 := Nat.lt_of_lt_of_le lt h
    rw [cur_of_lt lt, cur_of_lt (s := { s with inputs := l, cycle := c }) lt, pbufRead_of_lt idx, pbufRead_of_lt idx]
  · rw [cur_of_not_lt lt, cur_of_not_lt (s := { s with inputs := l, cycle := c }) lt]

theorem outData_of_registers {s : State} (h : s.plen.toNat ≤ 18) (l : List Inputs) (c : Nat) :
    outData { s with inputs := l, cycle := c } = outData s := by
  simp only [outData, cur_of_registers h]

/-- Settles O48: the outputs are functions of the registers, which do not change. -/
theorem waitingOutputsAreStable : Obligations.WaitingOutputsAreStable := by
  intro n s t inv all run
  obtain ⟨-, ⟨hplen, -⟩, -⟩ := inv
  rw [waitingChangesNothing n s all] at run
  injection run with e
  subst e
  exact ⟨fun tr => ⟨tr, outData_of_registers hplen _ _, rfl, rfl⟩,
    fun rsp => ⟨by simp [outputs, outputsAt, rsp], rfl, rfl, rfl, rfl⟩⟩

/-! ### The FSM's next state (R194, R195) -/

/-- Settles O39: by what happens at the edge, whose FSM state it fixes. -/
theorem nextFsmState : Obligations.NextFsmState := by
  intro s t low h
  cases edge_of_step h with
  | reset rst => simp [low] at rst
  | request acc =>
    obtain ⟨⟨idle, -, valid⟩, -⟩ := (fetch_eq_some_iff s _).1 acc
    simp [idle, valid]
  | abort rst tr ab =>
    cases st : s.st with
    | idle => simp [st, Fsm.transfer] at tr
    | rsp => simp [st, Fsm.transfer] at tr
    | _ => simp [ab]
  | byte rst tr ab rdy acc =>
    cases acc with
    | startDelimiter sof => simp [sof, ab, rdy]
    | escape body res =>
      rcases (reserved_iff _).1 res with e | e <;> simp [body, ab, rdy, e, endByte, escByte]
    | payloadByte last lt =>
      have below : s.idx.toNat < s.plen.toNat := lt
      rcases (completesByte_iff s).1 last with esc2 | ⟨body, res⟩
      · simp [esc2, ab, rdy, below]
      · simpa [body, ab, rdy, below] using (reserved_eq_false_iff _).1 res
    | checksum last nlt =>
      have past : ¬ s.idx.toNat < s.plen.toNat := nlt
      rcases (completesByte_iff s).1 last with esc2 | ⟨body, res⟩
      · simp [esc2, ab, rdy, past]
      · simpa [body, ab, rdy, past] using (reserved_eq_false_iff _).1 res
    | endDelimiter eof => simp [eof, ab, rdy]
  | response rst rsp rdy => simp [rsp, rdy]
  | wait rst noReq noSink noRsp =>
    cases st : s.st with
    | idle =>
      have noValid : s.now.cmdValid = false := by
        rw [Bool.eq_false_iff, Ne, requestAccepted_iff] at noReq
        simpa [st, rst] using noReq
      simp [st, noValid]
    | rsp => simp [st, noRsp st]
    | _ => simp [st, noSink (by simp [st, Fsm.transfer])]

/-- R25: when a response is taken. -/
theorem responseTaken_eq (s : State) : responseTaken s = (!s.now.rst && s.st == .rsp && s.now.rspReady) := rfl

theorem responseTaken_of_not_rsp {s : State} (h : s.st ≠ .rsp) : responseTaken s = false := by
  simp [responseTaken_eq, h]

theorem not_rsp_of_transfer {s : State} (tr : s.st.transfer = true) : s.st ≠ .rsp := fun rsp => by
  simp [rsp, Fsm.transfer] at tr

/-- R58: the number of requests in flight, accepted and without a response taken. -/
def pending (s : State) : Nat := if s.st = .idle then 0 else 1

theorem pending_of_busy {s : State} (busy : s.st ≠ .idle) : pending s = 1 := if_neg busy

/-- R183 to R187: the acceptance of a byte does not return to IDLE. -/
theorem ByteAcceptance.not_idle {s u : State} (acc : ByteAcceptance s u) : u.st ≠ .idle := by
  cases acc <;> simp

/-- R195: an edge puts a request in flight by accepting it, and ends it by its response. -/
theorem pending_edge {s t : State} (low : noReset s = true) (edge : Edge s t) :
    (if requestAccepted s then 1 else 0) + pending s = (if responseTaken s then 1 else 0) + pending t := by
  cases edge with
  | reset rst => simp [noReset, rst] at low
  | request acc =>
    obtain ⟨⟨idle, -, -⟩, -⟩ := (fetch_eq_some_iff s _).1 acc
    simp [requestAccepted_of_fetch acc, responseTaken_eq, pending, idle]
  | abort rst tr ab =>
    rw [requestAccepted_of_transfer tr, responseTaken_of_not_rsp (not_rsp_of_transfer tr),
      pending_of_busy (not_idle_of_transfer tr), pending_of_busy (by simp)]
  | byte rst tr ab rdy acc =>
    rw [requestAccepted_of_transfer tr, responseTaken_of_not_rsp (not_rsp_of_transfer tr),
      pending_of_busy (not_idle_of_transfer tr), pending_of_busy (tick_st _ ▸ acc.not_idle)]
  | response rst rsp rdy => simp [requestAccepted_of_rsp rsp, responseTaken_eq, pending, rst, rsp, rdy]
  | wait rst noReq noSink noRsp =>
    have notTaken : responseTaken s = false := by
      by_cases rsp : s.st = .rsp
      · simp [responseTaken_eq, noRsp rsp]
      · exact responseTaken_of_not_rsp rsp
    rw [noReq, notTaken]
    rfl

theorem countEdges_succ {s t : State} (h : step s = .next t) (p : State → Bool) (n : Nat) :
    countEdges p (n + 1) s = (if p s then 1 else 0) + countEdges p n t := by
  simp [countEdges, h]

/-- Settles O56: by induction on the number of edges, each of which keeps the balance. -/
theorem oneResponsePerRequest : Obligations.OneResponsePerRequest := by
  intro n s t low run
  change countEdges requestAccepted n s + pending s = countEdges responseTaken n s + pending t
  induction n generalizing s with
  | zero =>
    injection run with e
    rw [e]
    rfl
  | succ n ih =>
    obtain ⟨u, next⟩ := step_total s
    rw [allEdges_succ next, Bool.and_eq_true] at low
    rw [runEdges_succ next] at run
    have here := pending_edge low.1 (edge_of_step next)
    have rest := ih u low.2 run
    rw [countEdges_succ next, countEdges_succ next]
    omega

/-! ### The inputs that are not read (R191) -/

/-- The state with the inputs `inp` on the pins and `rest` to come. -/
def withPins (s : State) (inp : Inputs) (rest : List Inputs) : State := { s with inputs := inp :: rest }

/-- R191: two values of the pins agree on what the rules of the state read. -/
structure SameRead (s : State) (a b : Inputs) : Prop where
  rst : a.rst = b.rst
  request : s.st = .idle → a.cmdValid = b.cmdValid ∧ (a.cmdValid = true → requestWord a = requestWord b)
  sink : s.st.transfer = true → a.outReady = b.outReady ∧ a.snkAbort = b.snkAbort ∧
    (a.snkAbort = true → a.snkErr = b.snkErr ∧
      (a.snkErr = true → a.snkErrCode % 2 ^ s.params.errW = b.snkErrCode % 2 ^ s.params.errW))
  response : s.st = .rsp → a.rspReady = b.rspReady

section
variable {s t u : State} {a b : Inputs} {rest : List Inputs}

/-- R22: whether a request is accepted is read from `rst` and, in IDLE, from `cmd_valid`. -/
theorem SameRead.requestAccepted_eq (same : SameRead s a b) :
    requestAccepted (withPins s a rest) = requestAccepted (withPins s b rest) := by
  rw [Bool.eq_iff_iff, requestAccepted_iff, requestAccepted_iff]
  refine and_congr_right fun idle => ?_
  change a.rst = false ∧ a.cmdValid = true ↔ b.rst = false ∧ b.cmdValid = true
  rw [same.rst, (same.request idle).1]

/-- R22: the request accepted is read from the request port. -/
theorem SameRead.fetch_eq_some (same : SameRead s a b) {i : Instr} (acc : fetch (withPins s a rest) = some i) :
    fetch (withPins s b rest) = some i := by
  obtain ⟨⟨idle, rst, valid⟩, word⟩ := (fetch_eq_some_iff _ i).1 acc
  obtain ⟨sameValid, sameWord⟩ := same.request idle
  exact (fetch_eq_some_iff _ i).2
    ⟨⟨idle, same.rst.symm.trans rst, sameValid.symm.trans valid⟩,
      (congrArg decode (sameWord valid)).symm.trans word⟩

/-- R188: an abort reads the acceptance of its byte, the error and, with an error, the code's `ERR_W` bits. -/
theorem SameRead.tick_sinkAbort (same : SameRead s a b) (tr : s.st.transfer = true) (ab : a.snkAbort = true) :
    tick (sinkAbort a (withPins s a rest)) = tick (sinkAbort b (withPins s b rest)) := by
  obtain ⟨ready, -, record⟩ := same.sink tr
  obtain ⟨err, code⟩ := record ab
  have sameCode : (if a.snkErr then a.snkErrCode % 2 ^ s.params.errW else 0) =
      if a.snkErr then b.snkErrCode % 2 ^ s.params.errW else 0 := ite_congr rfl code fun _ => rfl
  rw [sinkAbort_eq, sinkAbort_eq, ← ready, ← err]
  simp only [withPins, sameCode]
  rfl

/-- R183 to R187: the acceptance of a byte does not read the pins. -/
theorem ByteAcceptance.withPins (acc : ByteAcceptance (withPins s a rest) u) :
    ByteAcceptance (withPins s b rest) (withPins u b rest) := by
  cases acc with
  | startDelimiter sof => exact .startDelimiter sof
  | escape body res => exact .escape body res
  | payloadByte last lt => exact .payloadByte last lt
  | checksum last nlt => exact .checksum last nlt
  | endDelimiter eof => exact .endDelimiter eof

/-- R180: the pins of a cycle are gone when its edge has passed. -/
theorem tick_withPins (h : u.inputs = a :: rest) : tick (withPins u b rest) = tick u := by
  simp [tick, withPins, h]

/-- R191: what happens at an edge depends on the pins that are read. -/
theorem SameRead.edge (same : SameRead s a b) (edge : Edge (withPins s a rest) t) : Edge (withPins s b rest) t := by
  cases edge with
  | reset rst => exact .reset (s := withPins s b rest) (same.rst.symm.trans rst)
  | request acc => exact .request (same.fetch_eq_some acc)
  | abort rst tr ab =>
    have ab' := (same.sink tr).2.1.symm.trans ab
    exact same.tick_sinkAbort tr ab ▸ .abort (s := withPins s b rest) (same.rst.symm.trans rst) tr ab'
  | byte rst tr ab rdy acc =>
    obtain ⟨sameReady, sameAbort, -⟩ := same.sink tr
    rw [← tick_withPins (b := b) acc.inputs_eq]
    exact .byte (s := withPins s b rest) (same.rst.symm.trans rst) tr (sameAbort.symm.trans ab)
      (sameReady.symm.trans rdy) acc.withPins
  | response rst rsp rdy =>
    exact .response (s := withPins s b rest) (same.rst.symm.trans rst) rsp ((same.response rsp).symm.trans rdy)
  | wait rst noReq noSink noRsp =>
    refine .wait (s := withPins s b rest) (same.rst.symm.trans rst) (same.requestAccepted_eq.symm.trans noReq)
      (fun tr => ?_) fun rsp => (same.response rsp).symm.trans (noRsp rsp)
    obtain ⟨sameReady, sameAbort, -⟩ := same.sink tr
    exact ⟨sameAbort.symm.trans (noSink tr).1, sameReady.symm.trans (noSink tr).2⟩

end

/-- Settles O46: the edge of the one value of the pins is an edge of the other. -/
theorem ignoredInputs : Obligations.IgnoredInputs := by
  intro s a b rest rst request sink response
  have same : SameRead s a b := ⟨rst, request, sink, response⟩
  obtain ⟨t, next⟩ := step_total (withPins s a rest)
  exact next.trans (step_of_edge (same.edge (edge_of_step next))).symm

end Sys2Proof.Machine
end

section
/-! PROOFS of the family of 60_exceptions.md: the outcome of a response (R203), the sink error (R201) and the short write
(R202). -/

namespace Sys2Proof.Machine

/-! ### The outcome of a response (R203) -/

section
variable {s : State} (rsp : s.st = .rsp)
include rsp

theorem outputs_rspValid_of_rsp : (outputs s).rspValid = true := by
  simp [outputs, outputsAt, rsp]

/-- R203, R36: the outcome of a response, from the registers that it presents. -/
theorem completion_of_rsp :
    completion (outputs s) =
      if s.rerr then some .sinkError else if s.cnt = s.flen then some .ok
      else if s.cnt < s.flen then some .short else none :=
  if_pos (outputs_rspValid_of_rsp rsp)

theorem completion_eq_sinkError_iff : completion (outputs s) = some .sinkError ↔ s.rerr = true := by
  rw [completion_of_rsp rsp]
  cases s.rerr with
  | true => simp
  | false => simp [ite_eq_iff]

theorem completion_eq_ok_iff : completion (outputs s) = some .ok ↔ s.rerr = false ∧ s.cnt = s.flen := by
  rw [completion_of_rsp rsp]
  cases s.rerr with
  | true => simp
  | false => simp

theorem completion_eq_short_iff :
    completion (outputs s) = some .short ↔ s.rerr = false ∧ s.cnt.toNat < s.flen.toNat := by
  rw [completion_of_rsp rsp, ← BitVec.lt_def]
  cases s.rerr with
  | true => simp
  | false => by_cases whole : s.cnt = s.flen <;> simp [whole]

end

/-- Settles O50: an error decides the outcome, and without one the count is the length or, by the invariant, below it. -/
theorem responseOutcome : Obligations.ResponseOutcome := by
  intro s inv rsp
  obtain ⟨-, -, -, ⟨hcnt, -⟩, -⟩ := inv
  refine ⟨hcnt, ?outcome, ⟨rfl, rfl, rfl⟩, ?ok, completion_eq_short_iff rsp, completion_eq_sinkError_iff rsp⟩
  case ok => rw [completion_eq_ok_iff rsp, BitVec.toNat_inj]
  case outcome =>
    cases err : s.rerr with
    | true => exact ⟨_, (completion_eq_sinkError_iff rsp).2 err⟩
    | false =>
      rcases hcnt.eq_or_lt with whole | part
      · exact ⟨_, (completion_eq_ok_iff rsp).2 ⟨err, BitVec.eq_of_toNat_eq whole⟩⟩
      · exact ⟨_, (completion_eq_short_iff rsp).2 ⟨err, part⟩⟩

/-! ### The sink's abort (R201, R202) -/

section
variable {s : State}

/-- R188, R207: the step of an abort. -/
theorem step_of_abort (tr : s.st.transfer = true) (rst : s.now.rst = false) (ab : s.now.snkAbort = true) :
    step s = .next (tick (sinkAbort s.now s)) :=
  step_of_edge (.abort rst tr ab)

/-- R31, R188: an abort counts the byte accepted at its own edge. -/
theorem toNat_sinkAbort_cnt (inv : BlockInv s) (tr : s.st.transfer = true) (rst : s.now.rst = false)
    (ab : s.now.snkAbort = true) :
    (sinkAbort s.now s).cnt.toNat = s.cnt.toNat + if byteAccepted s then 1 else 0 := by
  obtain ⟨-, count⟩ := counterCountsAcceptedBytes s _ inv (step_of_abort tr rst ab)
  rwa [rst, requestAccepted_of_transfer tr] at count

/-- R188: a code of `ERR_W` bits is recorded unchanged. -/
theorem sinkAbort_rcode_of_lt {inp : Inputs} (err : inp.snkErr = true) (fits : inp.snkErrCode < 2 ^ s.params.errW) :
    (sinkAbort inp s).rcode = inp.snkErrCode := by
  rw [sinkAbort_rcode, if_pos err, errToken, Nat.mod_eq_of_lt fits]

/-- R182: a transfer state presents a byte that the sink may accept. -/
theorem exists_byteAcceptance (tr : s.st.transfer = true) : ∃ u, ByteAcceptance s u := by
  cases st : s.st with
  | idle => simp [st, Fsm.transfer] at tr
  | rsp => simp [st, Fsm.transfer] at tr
  | sof => exact ⟨_, .startDelimiter st⟩
  | body => exact ⟨_, byteAcceptance_body st⟩
  | esc2 => exact ⟨_, byteAcceptance_advance ((completesByte_iff s).2 (.inl st))⟩
  | eof => exact ⟨_, .endDelimiter st⟩

/-- R183 to R186: before EOF the acceptance of a byte leads to a transfer state. -/
theorem ByteAcceptance.transfer_next {u : State} (acc : ByteAcceptance s u) (notEof : s.st ≠ .eof) :
    u.st.transfer = true := by
  cases acc with
  | endDelimiter eof => exact absurd eof notEof
  | _ => rfl

/-- R202: before EOF another byte of the frame follows the one presented. -/
theorem cnt_add_one_lt_flen (inv : BlockInv s) (tr : s.st.transfer = true) (notEof : s.st ≠ .eof) :
    (s.cnt + 1).toNat < s.flen.toNat := by
  obtain ⟨u, acc⟩ := exists_byteAcceptance tr
  rw [← acc.cnt_eq, ← acc.flen_eq]
  exact cnt_lt_flen (blockInv_of_byteAcceptance inv tr acc) (acc.transfer_next notEof)

/-- R202: an abort that does not count the end delimiter is short of the frame. -/
theorem sinkAbort_cnt_lt_flen (inv : BlockInv s) (tr : s.st.transfer = true)
    (partly : ¬ (s.st = .eof ∧ s.now.outReady = true)) : (sinkAbort s.now s).cnt.toNat < s.flen.toNat := by
  rw [sinkAbort_cnt]
  split
  · next rdy => exact cnt_add_one_lt_flen inv tr fun eof => partly ⟨eof, rdy⟩
  · exact cnt_lt_flen inv tr

end

/-- Settles O35: the abort records the error and its code, and the invariant keeps the response as it is while it waits. -/
theorem sinkErrorReachesResponse : Obligations.SinkErrorReachesResponse := by
  intro s inv tr rst ab err fits
  have next := step_of_abort tr rst ab
  have code : (sinkAbort s.now s).rcode = s.now.snkErrCode := sinkAbort_rcode_of_lt err fits
  have len : (sinkAbort s.now s).flen = s.flen := sinkAbort_flen s.now s
  refine ⟨_, next, outputs_rspValid_of_rsp rfl, err, (completion_eq_sinkError_iff rfl).2 err, rfl, err, code, code, len,
    toNat_sinkAbort_cnt inv tr rst ab, fun n u wait run => ?_⟩
  obtain ⟨-, kept⟩ := waitingOutputsAreStable n _ u (everyStepKeepsInvariant s _ inv next) wait run
  obtain ⟨valid, sameCount, sameLen, sameErr, sameCode⟩ := kept rfl
  exact ⟨valid, sameErr.trans err, sameCode.trans code, sameLen.trans len, sameCount⟩

/-- Settles O36: the end delimiter is the last byte of the frame, and the abort of any other byte leaves bytes of the frame
unsent. -/
theorem shortWriteCount : Obligations.ShortWriteCount := by
  intro s inv tr rst ab noErr
  have len : (sinkAbort s.now s).flen = s.flen := sinkAbort_flen s.now s
  refine ⟨_, step_of_abort tr rst ab, rfl, noErr, by simp [noErr], ?_⟩
  split
  · next atEnd =>
    obtain ⟨eof, rdy⟩ := atEnd
    have whole : (sinkAbort s.now s).cnt = (sinkAbort s.now s).flen := by
      rw [len, sinkAbort_cnt, if_pos rdy, cnt_add_one_of_eof inv eof]
    exact ⟨whole, (completion_eq_ok_iff rfl).2 ⟨noErr, whole⟩⟩
  · next partly =>
    have part : (sinkAbort s.now s).cnt.toNat < (sinkAbort s.now s).flen.toNat :=
      len.symm ▸ sinkAbort_cnt_lt_flen inv tr partly
    exact ⟨part, (completion_eq_short_iff rfl).2 ⟨noErr, part⟩⟩

end Sys2Proof.Machine
end

section
/-! PROOFS of the family of 70_reset_and_hazards.md: the timing of a frame whose sink never stalls (R229, R230), and the
reset edge (R220, R221, R224). -/

namespace Sys2Proof.Machine

/-! ### A frame without a stall (R229) -/

/-- A run goes on by one edge at its end. -/
theorem runEdges_add_one {n : Nat} {s t v : State} (run : runEdges n s = .next t) (next : step t = .next v) :
    runEdges (n + 1) s = .next v := by
  induction n generalizing s with
  | zero =>
    injection run with e
    rw [runEdges_succ (e ▸ next), runEdges]
  | succ n ih =>
    obtain ⟨u, first⟩ := step_total s
    rw [runEdges_succ first] at run ⊢
    exact ih run

/-- R229: the cycle after the first `k` bytes of `frame` were accepted, one at each edge: the next byte is presented, or
after the last one RSP, with a clear error record. -/
structure Unstalled (frame : List Byte) (k : Nat) (s : State) : Prop where
  delivered : Delivered frame (frame.take k) s
  st : if k < frame.length then s.st.transfer = true else s.st = .rsp
  rerr : s.rerr = false
  rcode : s.rcode = 0

section
variable {frame : List Byte} {k : Nat} {s t : State}

theorem Unstalled.transfer (h : Unstalled frame k s) (lt : k < frame.length) : s.st.transfer = true := by
  simpa [lt] using h.st

theorem Unstalled.rsp (h : Unstalled frame frame.length s) : s.st = .rsp := by simpa using h.st

/-- R36, R139: byte `k` of the frame is the byte presented. -/
theorem Unstalled.outData_eq (h : Unstalled frame k s) (lt : k < frame.length) : frame[k]? = some (outData s) := by
  obtain ⟨next, -⟩ := h.delivered.presents (h.transfer lt)
  have here := List.prefix_iff_getElem?.1 next k (by simp; omega)
  simpa [lt.le] using here

/-- R187: the acceptance of the end delimiter leads to RSP. -/
theorem ByteAcceptance.rsp_of_eof (acc : ByteAcceptance s t) (eof : s.st = .eof) : t.st = .rsp := by
  cases acc with
  | startDelimiter sof => simp [eof] at sof
  | escape body res => simp [eof] at body
  | payloadByte last lt => simp [completesByte, eof] at last
  | checksum last nlt => simp [completesByte, eof] at last
  | endDelimiter eof => rfl

/-- R183 to R187: the block leaves the transfer with the frame's last byte, and not before it. -/
theorem Delivered.st_of_byte {w : List Byte} (d : Delivered frame w s) (acc : ByteAcceptance s t) :
    if w.length + 1 < frame.length then t.st.transfer = true else t.st = .rsp := by
  by_cases eof : s.st = .eof
  · have whole : w.length + 1 = frame.length := by simpa using congrArg List.length (d.eof eof)
    rw [if_neg whole.not_lt]
    exact acc.rsp_of_eof eof
  · have tr : t.st.transfer = true := acc.transfer_next eof
    have more : w.length + 2 ≤ frame.length := by
      simpa using ((d.byte acc.transfer acc).presents tr).1.length_le
    rwa [if_pos (Nat.lt_of_succ_le more)]

/-- R229: a sink that accepts takes the frame one byte further. -/
theorem Unstalled.edge (h : Unstalled frame k s) (lt : k < frame.length) (ready : sinkReady s = true) :
    ∃ t, step s = .next t ∧ Unstalled frame (k + 1) t := by
  have tr := h.transfer lt
  obtain ⟨u, acc⟩ := exists_byteAcceptance tr
  simp only [sinkReady, Bool.and_eq_true, Bool.not_eq_true'] at ready
  obtain ⟨⟨rst, rdy⟩, ab⟩ := ready
  have taken : frame.take k ++ [outData s] = frame.take (k + 1) := by
    rw [List.take_add_one, h.outData_eq lt, Option.toList_some]
  refine ⟨tick u, step_of_byteAcceptance rst ab rdy acc, taken ▸ h.delivered.byte tr acc, ?st,
    acc.rerr_eq.trans h.rerr, acc.rcode_eq.trans h.rcode⟩
  case st => simpa [lt.le] using h.delivered.st_of_byte acc

/-- R229: a sink that accepts at `n` edges takes the frame `n` bytes further. -/
theorem Unstalled.run (h : Unstalled frame k s) {n : Nat} (le : k + n ≤ frame.length)
    (ready : allEdges sinkReady n s = true) : ∃ t, runEdges n s = .next t ∧ Unstalled frame (k + n) t := by
  induction n generalizing k s with
  | zero => exact ⟨s, rfl, h⟩
  | succ n ih =>
    have first : sinkReady s = true := by
      rw [allEdges, Bool.and_eq_true] at ready
      exact ready.1
    obtain ⟨t, next, after⟩ := h.edge (by omega) first
    rw [allEdges_succ next, Bool.and_eq_true] at ready
    rw [runEdges_succ next, Nat.add_comm n 1, ← Nat.add_assoc]
    exact ih after (by omega) ready.2

/-- R181: the cycle after an acceptance presents the first byte of the request's frame. -/
theorem unstalled_of_fetch {i : Instr} (acc : fetch s = some i) (next : step s = .next t) :
    Unstalled (encodeFrame s.params.fadePolicy i.addr i.code (argList i.argc i.args)) 0 t := by
  have start := delivered_of_fetch acc next
  rw [step_of_fetch acc] at next
  injection next with e
  subst e
  exact ⟨start, by simp [encodeFrame, escapeWrap, Fsm.transfer], rfl, rfl⟩

end

/-- Settles O55: each of the `flen` edges accepts one byte, and the cycle after them is the response's. -/
theorem unstalledFrameTiming : Obligations.UnstalledFrameTiming := by
  intro i s u acc next frame ready
  have start : Unstalled frame 0 u := unstalled_of_fetch acc next
  refine ⟨fun k lt => ?byte, ?response⟩
  case byte =>
    obtain ⟨v, run, here⟩ := start.run (n := k) (by omega) (allEdges_of_le lt.le ready)
    rw [Nat.zero_add] at here
    exact ⟨v, (runEdges_succ next k).trans run, here.transfer lt, (here.outData_eq lt).symm⟩
  case response =>
    obtain ⟨t, run, last⟩ := start.run (Nat.zero_add _).le ready
    rw [Nat.zero_add] at last
    have whole : runEdges (frame.length + 1) s = .next t := (runEdges_succ next _).trans run
    refine ⟨t, whole, last.rsp, last.rerr, last.rcode, ?_, last.delivered.flen_eq, fun rst rdy => ?_⟩
    · rw [last.delivered.cnt_eq, List.take_length]
    · exact ⟨_, runEdges_add_one whole (step_of_edge (.response rst last.rsp rdy)), rfl⟩

/-! ### The reset edge (R220, R221, R224) -/

/-- Settles O28: the step of a reset edge, register by register. -/
theorem resetEdgeSetsRegisters : Obligations.ResetEdgeSetsRegisters := by
  intro s rst
  refine ⟨_, step_of_rst rst, rfl, fun j lt => ?_, rfl, rfl, rfl, rfl, rfl, rfl, rfl, rfl, rfl, rfl⟩
  simp [pbufRead_tick lt, pbufRead_of_lt lt]

/-- Settles O49: every handshake needs `rst = 0`, and the edge leads to IDLE. -/
theorem resetDropsRequest : Obligations.ResetDropsRequest := by
  intro s t rst next
  rw [step_of_rst rst] at next
  injection next with e
  have idle : t.st = .idle := e ▸ rfl
  refine ⟨by simp [requestAccepted, rst], by simp [byteAccepted, rst], by simp [responseTaken, rst], ?_⟩
  simp [outputs, outputsAt, cmdReady, idle, Fsm.transfer]

/-- Settles O51: the reset state is what a reset edge makes of it, and its `ERR_W` is 8. -/
theorem resetMeetsInvariant : Obligations.ResetMeetsInvariant :=
  blockInv_resetEdge (s := State.reset) (show 1 ≤ 8 by decide)

end Sys2Proof.Machine
end
